-- ==== Sys2Proof/Word.lean ====
section
/-! DEFINITION. The word types of the EW-4864: bytes on the wires and the counters that wrap. -/

namespace Sys2Proof

/-- A byte of a feed block, of a request frame or of a response frame (R164). -/
abbrev Byte := BitVec 8

/-- A value of the 32-bit master tick counter, which wraps (R169). -/
abbrev Tick := BitVec 32

/-- A frame index: a link's 32-bit count of frames written, which wraps (R10, R25). -/
abbrev FrameIndex := BitVec 32

/-- A link sequence number, 0..255, which wraps (R2). -/
abbrev Seq := BitVec 8

end Sys2Proof
end

