-- ==== Sys2Proof/Config.lean ====
section
/-! DEFINITION. The figures of the EW-4864 that more than one rule uses (00_scope.md section 1.5 and 1.6).
The spec leaves no result undefined, so there is no free value here. -/

namespace Sys2Proof.Config

/-- Unity gain, 0 dB (00_scope.md section 1.6). -/
abbrev unity : Nat := 32768

/-- Source samples in one picture frame of a reel (R2, section 4.3). -/
abbrev perPicture : Nat := 2000

/-- The modulus of linear positions within one reel (R111). -/
abbrev linearModulus : Nat := 131072000

/-- Half that modulus: how far ahead a position still lies at or beyond another (R111). -/
abbrev linearHalf : Nat := 65536000

/-- The largest value of a 32-bit saturating counter (R23). -/
abbrev counterMax : Nat := 4294967295

/-- The sample range's lower end (00_scope.md section 1.6). -/
abbrev sampleMin : Int := -8388608

/-- The sample range's upper end. -/
abbrev sampleMax : Int := 8388607

/-- The bound of the applied step offset and of its target (R33, R34). -/
abbrev stepBound : Int := 167772

/-- Tracks in a frame of links A and B (R25). -/
abbrev programmeTracks : Nat := 112

/-- Tracks in a frame of link C (R25). -/
abbrev auxTracks : Nat := 8

end Sys2Proof.Config
end

