-- ==== Sys2Proof/Syntax.lean ====
section
/-! DEFINITION. The commands of the EW-4864: one constructor of `Instr` for each row of spec/opcode_table.json,
with the row's operands, and the types of those operands. -/

namespace Sys2Proof

/-- The three feed links (R8). -/
inductive LinkId where
  | A | B | C
  deriving DecidableEq, Repr

/-- A programme link: the links the selector chooses between (R54). -/
inductive ProgLink where
  | A | B
  deriving DecidableEq, Repr

/-- The three control ports (00_scope.md section 1.2). -/
inductive PortId where
  | A | B | C
  deriving DecidableEq, Repr

/-- Transport of a feed block (R2). -/
inductive Transport where
  | play | hold
  deriving DecidableEq, Repr

/-- What the line decoder delivers between two STARTs (section 1.1). A START is the command START_SYMBOL. -/
inductive Symbol where
  | data (b : Byte)
  | idle
  | undecodable
  deriving DecidableEq, Repr

/-- One contribution of a list: a bus and a weight (R3, R74). -/
structure Contribution where
  bus : Nat
  weight : Nat
  deriving DecidableEq, Repr

/-- The kind that GET_SLOT names (R94). -/
inductive SlotKind where
  | programme | room
  deriving DecidableEq, Repr

/-- A cue's mode, ONCE or REPEAT (R117). -/
inductive CueMode where
  | once | repeats
  deriving DecidableEq, Repr

/-- A cue's action with its arguments (R119, R120). An absent level field is `none`. -/
inductive CueAction where
  | programmeLevel (level ramp : Nat)
  | roomPush (programme master : Option Nat) (ramp : Nat)
  | roomPop (ramp : Nat)
  | muteGroup (group : Nat) (on : Bool)
  | notify
  deriving DecidableEq, Repr

/-- What CUE_ADD carries (R121). A match field whose enable is off is `none`. -/
structure CueSpec where
  id : Nat
  reel : Option Nat
  frame : Option Nat
  offset : Option Nat
  mode : CueMode
  action : CueAction
  deriving DecidableEq, Repr

/-- The values of the settings record (R170). A membership is the 64-bit value of R164: bit b for bus b. -/
structure Settings where
  primary : ProgLink
  autoRevert : Bool
  trims : List Nat
  distances : List Nat
  airTemp : Int
  members : List (BitVec 64)
  programmeLevel : Nat
  masterLevel : Nat
  deriving DecidableEq, Repr

/-- A settings record: its values and its 16-bit check (R170). -/
structure SettingsRecord where
  values : Settings
  check : BitVec 16
  deriving DecidableEq, Repr

/-- The works that the blocks of the part do at a block end: the selector's evaluation (R56), the steps of the mute
factors (R144), the scene table's work (R79), the room state's level steps (R128), the show position block's work
(R113) and the interpolator's (R35, R38). -/
inductive Work where
  | evaluation | muteSteps | scene | levels | show | links
  deriving DecidableEq, Repr

/-- What falls at a block end: a work of the part, or the taking of the request that waits at a port. They are
separate events, taken in any order (section 4.6, R77, R92, R154), so BLOCK_END carries their order (log 6). -/
inductive BlockEvent where
  | work (w : Work)
  | take (port : PortId)
  deriving DecidableEq, Repr

/-- A control request as the port engine holds it: a command with its payload (R157, R164). -/
inductive Request where
  | getStatus (sect : Nat)
  | getCounters (sect : Nat)
  | getMeters (group : Nat)
  | getPosition
  | getSlot (kind : SlotKind) (slot : Nat)
  | getNotices
  | setNoticeMask (mask : BitVec 16)
  | setNoticeEnable (on : Bool)
  | getResetCause
  | cueAdd (cue : CueSpec)
  | cueCancel (id : Nat)
  | cueList (rank : Nat)
  | cueLog
  | roomPush (programme master : Option Nat) (ramp : Nat)
  | roomPop (ramp : Nat)
  | linkRestart (link : LinkId)
  | linkDisable (link : LinkId)
  | linkEnable (link : LinkId)
  | handover
  | forceProgramme (target : LinkId)
  | setPrimary (link : LinkId)
  | setRevert (on : Bool)
  | setProgrammeLevel (level ramp : Nat)
  | setMasterLevel (level ramp : Nat)
  | muteGroup (group : Nat) (on : Bool)
  | roomSlotSet (slot track gain ramp : Nat) (list : List Contribution)
  | roomSlotGain (slot gain ramp : Nat)
  | roomSlotClear (slot : Nat)
  | setBusTrim (bus trim : Nat)
  | setBusDistance (bus distance : Nat)
  | setAirTemp (temp : Int)
  | setMuteGroup (group : Nat) (buses : List Nat)
  | clearCounters
  | storeSettings
  | restart
  | ackResetCause
  deriving DecidableEq, Repr

/-- The commands of the part: the rows of spec/opcode_table.json, in the table's order. -/
inductive Instr where
  /-- START_SYMBOL (R5). `ticks` is how many master ticks after the event before it the START arrives. -/
  | startSymbol (link : LinkId) (ticks : Nat)
  /-- FEED_BLOCK (R10). The symbols that follow the START, in order. -/
  | feedBlock (link : LinkId) (symbols : List Symbol)
  | gapTimerExpiry (link : LinkId)
  | holdoverTimerExpiry (link : LinkId)
  | houseSample
  /-- BLOCK_END (R96). The order of the events that fall at it; a work that the order leaves out comes last. -/
  | blockEnd (order : List BlockEvent)
  /-- REQUEST_SELECTION (R152). Every byte the master sends between assertion and release of the select line. -/
  | requestSelection (port : PortId) (sent : List Byte)
  /-- READ_SELECTION (R155). `clocked` is how many bytes the master clocks after the fetch byte. -/
  | readSelection (port : PortId) (clocked : Nat)
  | linkRestart (port : PortId) (link : LinkId)
  | linkDisable (port : PortId) (link : LinkId)
  | linkEnable (port : PortId) (link : LinkId)
  | handover (port : PortId)
  | forceProgramme (port : PortId) (target : LinkId)
  | setPrimary (port : PortId) (link : LinkId)
  | setRevert (port : PortId) (on : Bool)
  | getSlot (port : PortId) (kind : SlotKind) (slot : Nat)
  | roomSlotSet (port : PortId) (slot track gain ramp : Nat) (list : List Contribution)
  | roomSlotGain (port : PortId) (slot gain ramp : Nat)
  | roomSlotClear (port : PortId) (slot : Nat)
  | getMeters (port : PortId) (group : Nat)
  | clearCounters (port : PortId)
  | getCounters (port : PortId) (sect : Nat)
  | getStatus (port : PortId) (sect : Nat)
  | getPosition (port : PortId)
  | cueAdd (port : PortId) (cue : CueSpec)
  | cueCancel (port : PortId) (id : Nat)
  | cueLog (port : PortId)
  | cueList (port : PortId) (rank : Nat)
  | setProgrammeLevel (port : PortId) (level ramp : Nat)
  | setMasterLevel (port : PortId) (level ramp : Nat)
  | muteGroup (port : PortId) (group : Nat) (on : Bool)
  | roomPush (port : PortId) (programme master : Option Nat) (ramp : Nat)
  | roomPop (port : PortId) (ramp : Nat)
  | setBusTrim (port : PortId) (bus trim : Nat)
  | setMuteGroup (port : PortId) (group : Nat) (buses : List Nat)
  | setAirTemp (port : PortId) (temp : Int)
  | setBusDistance (port : PortId) (bus distance : Nat)
  | getNotices (port : PortId)
  | setNoticeMask (port : PortId) (mask : BitVec 16)
  | setNoticeEnable (port : PortId) (on : Bool)
  | storeSettings (port : PortId)
  /-- STORE_WRITE_END (R171). The record that the part reads back from the memory. -/
  | storeWriteEnd (readBack : SettingsRecord)
  | restart (port : PortId)
  | getResetCause (port : PortId)
  | ackResetCause (port : PortId)
  | powerOn
  | resetPin
  | resetEnd
  | loadEnd
  /-- REF_EDGE (R168). The period that this rising edge ends, in crystal cycles. -/
  | refEdge (period : Nat)
  | refMissingPeriod
  | pullInEnd
  | powerLoss
  deriving DecidableEq, Repr

end Sys2Proof
end

