-- ==== Sys2Proof/Decode.lean ====
section
/-! DEFINITION. Decoding table words. The part fetches no instruction words: it is commanded by events on its wires
and by request frames (R151, R164), whose bytes Machine/Operands.lean and Machine/Requests.lean read. -/

namespace Sys2Proof

/-- The command that a word spells by the table's bits. No row of spec/opcode_table.json gives any bits, so no word
spells a command. -/
def decodeTableWord (_nbits _w : Nat) : Option Instr := none

end Sys2Proof
end

