-- ==== Sys2Proof/Machine/State.lean ====
section
/-! DEFINITION. The state of the EW-4864 as plain data, its two kinds of stop, and the state right after reset. -/

namespace Sys2Proof.Machine

/-! ### Reception, store and tracker (chapters 1 to 3) -/

/-- The five states of a link (R8). -/
inductive LinkState where
  | disabled | search | acquire | locked | holdover
  deriving DecidableEq, Repr

/-- Server health (R4). -/
inductive Health where
  | ok | degraded | fault
  deriving DecidableEq, Repr

/-- Server pull (R4). -/
inductive Pull where
  | unpulled | down | up
  deriving DecidableEq, Repr

/-- A receiver's reception phase (R1). `off` is the DISABLED link's receiver, in neither phase. A block in assembly
holds its capture and the bytes read so far. -/
inductive Phase where
  | off
  | hunt
  | assemble (capture : Tick) (got : List Byte)
  deriving DecidableEq, Repr

/-- A show position: a reel and the linear position frame × 2,000 + offset (R111). -/
structure ShowPos where
  reel : Nat
  lin : Nat
  deriving DecidableEq, Repr

/-- A stamp (R27) with its locate mark (R112). -/
structure Stamp where
  first : FrameIndex
  pos : ShowPos
  transport : Transport
  tracks : Nat
  mark : Bool
  deriving DecidableEq, Repr

/-- An entry of the capture history (R29). -/
structure HistEntry where
  seq : Seq
  capture : Tick
  deriving DecidableEq, Repr

/-- The five kinds of metadata record with their contents (R3). -/
inductive MetaRecord where
  | slotSet (slot track gain ramp : Nat) (list : List Contribution)
  | slotGain (slot gain ramp : Nat)
  | slotMove (slot : Nat) (list : List Contribution)
  | slotRelease (slot ramp : Nat)
  | sceneRelease (ramp : Nat)
  deriving DecidableEq, Repr

/-- A record of a metadata queue with its tag (R78). -/
structure Tagged where
  tag : FrameIndex
  body : MetaRecord
  deriving DecidableEq, Repr

/-- A read position: frame index and fraction in units of 2^-24 (R26). -/
structure ReadPos where
  index : FrameIndex
  frac : Nat
  deriving DecidableEq, Repr

/-- A departing position with the level `L`, the number of samples `r` it fades over and the number of them
already computed (R38, R50). -/
structure Departing where
  pos : ReadPos
  level : Nat
  total : Nat
  given : Nat
  deriving DecidableEq, Repr

/-- Whether a read position is fresh, and what set it (R26, R80). A slip keeps as `origin` the read index from before the
first slip of the present freshness (R50, R113). -/
inductive Fresh where
  | no
  | lock
  | slip (origin : FrameIndex)
  deriving DecidableEq, Repr

/-- Why a record is rejected, in the order of the table of R83. -/
inductive Reject where
  | slotRange | slotFree | trackRange | busRange | busDuplicate | weightRange | poolShort
  deriving DecidableEq, Repr

/-- A link's counters (R23, R30). `rejected` has one entry for each reason of R83, in its order. -/
structure LinkCounters where
  valid : Nat
  malformed : Nat
  concealed : Nat
  slips : Nat
  starved : Nat
  dropped : Nat
  rejected : List Nat
  ignored : Nat
  rateFaults : Nat
  deriving DecidableEq, Repr

/-- One link: receiver, status record, store, tracker and fades (chapters 1 to 3). -/
structure Link where
  state : LinkState
  run : Nat
  seq : Seq
  tracks : Nat
  transport : Transport
  health : Health
  pull : Pull
  phase : Phase
  gapDeadline : Option Tick
  holdDeadline : Option Tick
  ring : List (List Int)
  written : FrameIndex
  held : Nat
  stamps : List Stamp
  history : List HistEntry
  queue : List Tagged
  contRef : Option ShowPos
  measuredOffset : Int
  measured : Bool
  target : Int
  applied : Int
  taken : Int
  readPos : Option ReadPos
  fresh : Fresh
  departing : Option Departing
  fadeIn : Bool
  counters : LinkCounters
  deriving DecidableEq, Repr

/-! ### Selector (chapter 4) -/

/-- The selector's states (R54). In `crossfade`, `out` is the outgoing link or NONE, `inc` the incoming one. -/
inductive SelState where
  | idle
  | on (x : ProgLink)
  | crossfade (out : Option ProgLink) (inc : ProgLink) (k : Nat)
  deriving DecidableEq, Repr

/-- The alignment status of the standby (R54). -/
inductive AlignStatus where
  | aligned | unaligned | notReady
  deriving DecidableEq, Repr

/-- The selector (R54). `inForce` is the state played by the present block; `cur` is the state for the block that
follows; they differ only while a block end is open. -/
structure Selector where
  cur : SelState
  inForce : SelState
  setHere : Bool
  primary : ProgLink
  autoRevert : Bool
  manualHold : Bool
  align : AlignStatus
  revert : Nat
  deriving DecidableEq, Repr

/-! ### Scene table and room state (chapters 5 and 8) -/

/-- A gain ramp (R76) with its mark "changed at this block end" (R77). -/
structure Ramp where
  current : Nat
  target : Nat
  remaining : Nat
  changed : Bool
  deriving DecidableEq, Repr

/-- A programme slot's state (R73). -/
inductive SlotState where
  | free | active | releasing
  deriving DecidableEq, Repr

/-- A programme slot (R73). A FREE slot has the empty list. -/
structure Slot where
  state : SlotState
  track : Nat
  ramp : Ramp
  list : List Contribution
  deriving DecidableEq, Repr

/-- A room slot (R75): FREE or ACTIVE. The ramp's target is the room state's gain target for it (R127). -/
structure RoomSlot where
  active : Bool
  track : Nat
  ramp : Ramp
  list : List Contribution
  deriving DecidableEq, Repr

/-- Where a contribution's sample comes from (R97). -/
inductive Source where
  | programme (track : Nat)
  | aux (track : Nat)
  deriving DecidableEq, Repr

/-- A contribution with the effective gain formed for the block (R98, R99). -/
structure MixTerm where
  source : Source
  bus : Nat
  gain : Nat
  deriving DecidableEq, Repr

/-- The scene table (R73, R74, R75). -/
structure Scene where
  slots : List Slot
  free : Nat
  roomSlots : List RoomSlot
  deriving DecidableEq, Repr

/-- An overlay entry: its owner and the saved targets (R131). -/
structure Overlay where
  owner : PortId
  programme : Nat
  master : Nat
  slotTargets : List Nat
  groups : List Bool
  deriving DecidableEq, Repr

/-- The room state record without the room slot targets, which are the room slots' own (R127), and the overlay
stack, bottom first (R131). -/
structure Room where
  programme : Ramp
  master : Ramp
  groups : List Bool
  stack : List Overlay
  deriving DecidableEq, Repr

/-! ### Show position and cue list (chapter 7) -/

/-- A cue (R117) with its mark "added at this block end" (R121). -/
structure Cue where
  port : PortId
  id : Nat
  reel : Option Nat
  frame : Option Nat
  offset : Option Nat
  mode : CueMode
  action : CueAction
  matched : Bool
  fires : Nat
  added : Bool
  deriving DecidableEq, Repr

/-- The show position block (section 7.2). `workDone` says that its work of the open block end is done, so that a
LOCATE of the selector is no longer held (R116). -/
structure Show where
  start : Option (ProgLink × FrameIndex)
  hwm : Option ShowPos
  cues : List Cue
  locateHeld : Bool
  workDone : Bool
  deriving DecidableEq, Repr

/-! ### Output stage (chapter 9) with the mix engine's counters (chapter 6) -/

/-- What the output stage and the mix engine hold for one bus (R139, R101, R104). `inTrim`, `inMeff` and `inDelay`
are the values fixed for the present block (R140). `line` is the delay line, newest value first (R148). -/
structure Bus where
  trim : Nat
  distance : Nat
  mute : Ramp
  computed : Nat
  limit : Bool
  applied : Nat
  wait : Nat
  line : List Int
  inTrim : Nat
  inMeff : Nat
  inDelay : Nat
  overload : Nat
  clips : Nat
  deriving DecidableEq, Repr

/-! ### Control ports (chapter 10) -/

/-- The status codes of section 10.4. -/
inductive Status where
  | ok | pending | badFrame | unknown | notPermitted | badArgument | full | empty
  | notFound | duplicate | notOwner | notActive | notReady | busy
  deriving DecidableEq, Repr

/-- The notice events (R159), in the order of their bits (R167). -/
inductive Notice where
  | linkState | serverStatus | programme | slip | metadataReject | metadataDrop
  | cueFired | cueActionRefused | overlayTaken | clip | houseRef | storeDone
  deriving DecidableEq, Repr

/-- A held response: status, echoed code and payload (R164). -/
structure Response where
  status : Status
  code : Byte
  payload : List Byte
  deriving DecidableEq, Repr

/-- The action kinds of CUE_ADD (R164), as the fired log keeps them (R123). -/
inductive CueKind where
  | programmeLevel | roomPush | roomPop | muteGroup | notify
  deriving DecidableEq, Repr

/-- An entry of a fired log (R123). The outcome is DONE (`none`) or the refusal's status. -/
structure LogEntry where
  id : Nat
  mode : CueMode
  kind : CueKind
  block : BitVec 32
  outcome : Option Status
  deriving DecidableEq, Repr

/-- One control port: its engine (R153), its notices (R158), its fired log (R123), its refused cue actions (R120)
and its peak set (R104). -/
structure Port where
  waiting : Option Request
  due : Bool
  response : Option Response
  live : Option Request
  refusal : Option Byte
  dataOut : List Byte
  raised : BitVec 12
  mask : BitVec 12
  enable : Bool
  log : List LogEntry
  cuesRefused : Nat
  peaks : List Nat
  deriving DecidableEq, Repr

/-! ### House reference, calibration store, start-up (chapter 11) -/

/-- The states of the reference block (R168). -/
inductive RefState where
  | absent | acquiring | locked | hold
  deriving DecidableEq, Repr

/-- The reference block and what decides the tick's frequency (R168, R169). `freeCycles` is the crystal cycles that
32,768 ticks take at the free frequency (log 20). -/
structure Reference where
  state : RefState
  qual : Nat
  missing : Nat
  bad : Nat
  everLocked : Bool
  periods : List Nat
  freeCycles : Nat
  pullIn : Bool
  pullPeriods : Nat
  edgeRecent : Bool
  deriving DecidableEq, Repr

/-- What the nonvolatile memory holds (R170, R172): nothing ever written; what an interrupted or failed write left,
whose check does not match; or a record. -/
inductive NvMemory where
  | blank
  | torn
  | record (r : SettingsRecord)
  deriving DecidableEq, Repr

/-- The result of the last store write (R170). -/
inductive WriteResult where
  | untried | done | failed
  deriving DecidableEq, Repr

/-- The calibration store (R170, R171). `writing` holds the snapshot while the write state is WRITING. -/
structure CalStore where
  memory : NvMemory
  valid : Bool
  writing : Option Settings
  result : WriteResult
  deriving DecidableEq, Repr

/-- The kinds of reset (R175). -/
inductive ResetKind where
  | powerOn | pin | command
  deriving DecidableEq, Repr

/-- The start-up states (R173), and the part without power (R172, log 22). -/
inductive Startup where
  | off | reset | loading | run
  deriving DecidableEq, Repr

/-- The reset cause record (R175). The cause NONE is `none`. -/
structure CauseRecord where
  cause : Option ResetKind
  lost : Bool
  deriving DecidableEq, Repr

/-- The state of the EW-4864. `pending` is the queue of commands that wait, first in, first out; everything else
is the part's own. -/
structure State where
  pending : List Instr
  startup : Startup
  resetKind : ResetKind
  tick : Tick
  blockCount : BitVec 32
  samplesDone : Nat
  blockEndOpen : Bool
  mixing : Bool
  linkA : Link
  linkB : Link
  linkC : Link
  sel : Selector
  scene : Scene
  mixTerms : List MixTerm
  room : Room
  airTemp : Int
  members : List (BitVec 64)
  delayDirty : Bool
  buses : List Bus
  outFrame : List Int
  outMark : Bool
  cueing : Show
  portA : Port
  portB : Port
  portC : Port
  ref : Reference
  store : CalStore
  cause : CauseRecord
  deriving DecidableEq, Repr

/-- Reasons for which the part would stop. The spec gives the block none, so there is no constructor; a step never
faults. -/
inductive Fault where
  deriving DecidableEq, Repr

/-- Reasons for which a command would have no meaning. -/
inductive Refusal where
  /-- Raised by `exec`'s arm of a command that has no meaning yet; no arm does. Safe: the model stops where the
  part goes on. -/
  | notModelled (mnemonic : String)
  deriving DecidableEq, Repr

/-! ### Reset values -/

/-- A gain ramp at rest at a value (R76). -/
def Ramp.rest (v : Nat) : Ramp := ⟨v, v, 0, false⟩

/-- A link's counters after any reset (R23). -/
def LinkCounters.zero : LinkCounters := ⟨0, 0, 0, 0, 0, 0, List.replicate 7 0, 0, 0⟩

/-- A link of the given frame width after any reset (R24, R19, R43). -/
def Link.reset (width : Nat) : Link where
  state := .search
  run := 0
  seq := 0
  tracks := 0
  transport := .hold
  health := .ok
  pull := .unpulled
  phase := .hunt
  gapDeadline := none
  holdDeadline := none
  ring := List.replicate 256 (List.replicate width 0)
  written := 0
  held := 0
  stamps := []
  history := []
  queue := []
  contRef := none
  measuredOffset := 0
  measured := false
  target := 0
  applied := 0
  taken := 0
  readPos := none
  fresh := .no
  departing := none
  fadeIn := false
  counters := LinkCounters.zero

/-- The selector after any reset, with the store's defaults (R54, R170). -/
def Selector.reset : Selector := ⟨.idle, .idle, false, .A, true, false, .notReady, 0⟩

/-- A programme slot after any reset (R73). -/
def Slot.reset : Slot := ⟨.free, 0, Ramp.rest 0, []⟩

/-- A room slot after any reset (R75). -/
def RoomSlot.reset : RoomSlot := ⟨false, 0, Ramp.rest 0, []⟩

/-- The scene table after any reset (R95). -/
def Scene.reset : Scene := ⟨List.replicate 128 Slot.reset, 512, List.replicate 8 RoomSlot.reset⟩

/-- The room state after any reset, with the store's defaults (R138, R170). -/
def Room.reset : Room :=
  ⟨Ramp.rest Config.unity, Ramp.rest Config.unity, [false, false, false, false], []⟩

/-- The show position block after any reset (R126). -/
def Show.reset : Show := ⟨none, none, [], false, false⟩

/-- A bus after any reset, with the store's defaults (R139, R170, R101, R104). The three fixed values are DESIGN
CHOICE 0 (log 27). -/
def Bus.reset : Bus :=
  ⟨Config.unity, 0, Ramp.rest Config.unity, 0, false, 0, 0, List.replicate 2048 0, 0, 0, 0, 0, 0⟩

/-- A port after any reset (R156, R158, R123, R120, R104). -/
def Port.reset : Port :=
  ⟨none, false, none, none, none, [], 0, 0, false, [], 0, List.replicate 64 0⟩

/-- The reference block in RESET (R168, R169; log 27). -/
def Reference.reset : Reference := ⟨.absent, 0, 0, 0, false, [], 32768, false, 0, false⟩

/-- The calibration store with a memory never written (R170; log 16). -/
def CalStore.reset : CalStore := ⟨.blank, false, none, .untried⟩

/-- The machine right after power-on: in RESET, with every block in its reset condition (R173; log 28). -/
def State.reset : State where
  pending := []
  startup := .reset
  resetKind := .powerOn
  tick := 0
  blockCount := 0
  samplesDone := 0
  blockEndOpen := false
  mixing := false
  linkA := Link.reset Config.programmeTracks
  linkB := Link.reset Config.programmeTracks
  linkC := Link.reset Config.auxTracks
  sel := Selector.reset
  scene := Scene.reset
  mixTerms := []
  room := Room.reset
  airTemp := 20
  members := [0, 0, 0, 0]
  delayDirty := false
  buses := List.replicate 64 Bus.reset
  outFrame := List.replicate 64 0
  outMark := false
  cueing := Show.reset
  portA := Port.reset
  portB := Port.reset
  portC := Port.reset
  ref := Reference.reset
  store := CalStore.reset
  cause := ⟨none, false⟩

end Sys2Proof.Machine
end

