-- ==== Sys2Proof/Machine/Flags.lean ====
section
/-! DEFINITION. Flags and bounded values: notice bits and the notice line (R158, R159, R167), status codes (R164),
saturating counters (R23), clamps and saturations, and the wire codes of named values (R164). -/

namespace Sys2Proof.Machine

/-- An event's bit in a notice set (R167). -/
def Notice.bit : Notice → Nat
  | .linkState => 0
  | .serverStatus => 1
  | .programme => 2
  | .slip => 3
  | .metadataReject => 4
  | .metadataDrop => 5
  | .cueFired => 6
  | .cueActionRefused => 7
  | .overlayTaken => 8
  | .clip => 9
  | .houseRef => 10
  | .storeDone => 11

/-- Puts an event into a port's pending set; one already there stays once (R159). -/
def Port.raise (n : Notice) (p : Port) : Port := { p with raised := p.raised ||| (1#12 <<< n.bit) }

/-- Whether a port's notice line is asserted (R158). -/
def Port.noticeLine (p : Port) : Bool := p.enable && p.raised &&& ~~~p.mask != 0#12

/-- Whether an event is in a port's pending set. -/
def Port.isRaised (n : Notice) (p : Port) : Bool := p.raised.getLsbD n.bit

/-- One more on a 32-bit saturating counter (R23). -/
def bump (n : Nat) : Nat := min (n + 1) Config.counterMax

/-- One more on a 16-bit saturating counter (R104, R117). -/
def bump16 (n : Nat) : Nat := min (n + 1) 65535

/-- clamp(x, lo, hi) of 00_scope.md section 1.7. -/
def clampInt (lo hi x : Int) : Int := max lo (min hi x)

/-- Saturation to the 24-bit sample range (R46, R141). -/
def saturate (x : Int) : Int := clampInt Config.sampleMin Config.sampleMax x

/-- A level that attenuates only, clamped to unity (00_scope.md section 1.6). -/
def clampLevel (v : Nat) : Nat := min v Config.unity

/-- The wire code of a status (R164). -/
def Status.byte : Status → Byte
  | .ok => 0x00
  | .pending => 0x01
  | .badFrame => 0x02
  | .unknown => 0x03
  | .notPermitted => 0x04
  | .badArgument => 0x05
  | .full => 0x06
  | .empty => 0x07
  | .notFound => 0x08
  | .duplicate => 0x09
  | .notOwner => 0x0A
  | .notActive => 0x0B
  | .notReady => 0x0C
  | .busy => 0x0D

/-- Link state codes (R164). -/
def LinkState.byte : LinkState → Byte
  | .disabled => 0
  | .search => 1
  | .acquire => 2
  | .locked => 3
  | .holdover => 4

/-- Transport codes, as in the feed block (R165). -/
def transportByte : Transport → Byte
  | .play => 1
  | .hold => 2

/-- Health codes (R165). -/
def Health.byte : Health → Byte
  | .ok => 0
  | .degraded => 1
  | .fault => 2

/-- Pull codes (R165). -/
def Pull.byte : Pull → Byte
  | .unpulled => 0
  | .down => 1
  | .up => 2

/-- Selector state codes (R164). -/
def SelState.byte : SelState → Byte
  | .idle => 0
  | .on _ => 1
  | .crossfade _ _ _ => 2

/-- Alignment status codes (R164). -/
def AlignStatus.byte : AlignStatus → Byte
  | .aligned => 0
  | .unaligned => 1
  | .notReady => 2

/-- Slot state codes (R164). -/
def SlotState.byte : SlotState → Byte
  | .free => 0
  | .active => 1
  | .releasing => 2

/-- A programme link's byte (R164). -/
def progLinkByte : ProgLink → Byte
  | .A => 0
  | .B => 1

/-- A link field that may name none, 0xFF (R164). -/
def progByte : Option ProgLink → Byte
  | none => 0xFF
  | some x => progLinkByte x

/-- Owner port codes (R164). -/
def portByte : PortId → Byte
  | .A => 0
  | .B => 1
  | .C => 2

/-- Cue mode codes (R164). -/
def modeByte : CueMode → Byte
  | .once => 0
  | .repeats => 1

/-- Cue action kind codes (R164). -/
def CueKind.byte : CueKind → Byte
  | .programmeLevel => 0
  | .roomPush => 1
  | .roomPop => 2
  | .muteGroup => 3
  | .notify => 4

/-- House reference state codes (R164). -/
def RefState.byte : RefState → Byte
  | .absent => 0
  | .acquiring => 1
  | .locked => 2
  | .hold => 3

/-- Write result codes (R164). -/
def WriteResult.byte : WriteResult → Byte
  | .untried => 0
  | .done => 1
  | .failed => 2

/-- Start-up state codes: LOADING 1 and RUN 2 (R164). No status is read in the other two states. -/
def Startup.byte : Startup → Byte
  | .off => 0
  | .reset => 0
  | .loading => 1
  | .run => 2

/-- Reset cause codes (R164). -/
def causeByte : Option ResetKind → Byte
  | none => 0
  | some .powerOn => 1
  | some .pin => 2
  | some .command => 3

/-- on is 1 and off is 0 (R164). -/
def boolByte (b : Bool) : Byte := if b then 1 else 0

/-- The kind of a cue action. -/
def actionKind : CueAction → CueKind
  | .programmeLevel _ _ => .programmeLevel
  | .roomPush _ _ _ => .roomPush
  | .roomPop _ => .roomPop
  | .muteGroup _ _ => .muteGroup
  | .notify => .notify

end Sys2Proof.Machine
end

