-- ==== Sys2Proof/Machine/Ops.lean ====
section
/-! DEFINITION. Operations shared by the commands: access to links and ports, notices, gain ramps, the master tick
and the passing of time, the answers of a port engine, and the reset of the part. -/

namespace Sys2Proof.Machine

/-! ### Links and ports -/

/-- The link a name stands for. -/
def State.link (s : State) : LinkId → Link
  | .A => s.linkA
  | .B => s.linkB
  | .C => s.linkC

/-- Replaces one link. -/
def State.setLink (s : State) (l : LinkId) (x : Link) : State :=
  match l with
  | .A => { s with linkA := x }
  | .B => { s with linkB := x }
  | .C => { s with linkC := x }

/-- Changes one link by a function of it. -/
def State.onLink (s : State) (l : LinkId) (f : Link → Link) : State := s.setLink l (f (s.link l))

/-- The port a name stands for. -/
def State.port (s : State) : PortId → Port
  | .A => s.portA
  | .B => s.portB
  | .C => s.portC

/-- Replaces one port. -/
def State.setPort (s : State) (p : PortId) (x : Port) : State :=
  match p with
  | .A => { s with portA := x }
  | .B => { s with portB := x }
  | .C => { s with portC := x }

/-- Changes one port by a function of it. -/
def State.onPort (s : State) (p : PortId) (f : Port → Port) : State := s.setPort p (f (s.port p))

/-- The link of a programme link's name. -/
def progLink : ProgLink → LinkId
  | .A => .A
  | .B => .B

/-- The programme link a link's name stands for, if it is one. -/
def asProg : LinkId → Option ProgLink
  | .A => some .A
  | .B => some .B
  | .C => none

/-- The other programme link. -/
def otherProg : ProgLink → ProgLink
  | .A => .B
  | .B => .A

/-- The programme link of the server on a port (R66). -/
def portProg : PortId → Option ProgLink
  | .A => some .A
  | .B => some .B
  | .C => none

/-- The port of a link's own server; link C's is port C itself (R37, R83). -/
def serverPort : LinkId → PortId
  | .A => .A
  | .B => .B
  | .C => .C

/-- A link in LOCKED or HOLDOVER is running (R8). -/
def Link.running (x : Link) : Bool := x.state = .locked || x.state = .holdover

/-- How many tracks a frame of a link holds (R25). -/
def linkWidth : LinkId → Nat
  | .A => Config.programmeTracks
  | .B => Config.programmeTracks
  | .C => Config.auxTracks

/-! ### Notices (R159) -/

/-- Raises an event at one port. -/
def State.notify (s : State) (p : PortId) (n : Notice) : State := s.onPort p (Port.raise n)

/-- Raises an event at ports A, B and C. -/
def State.notifyAll (s : State) (n : Notice) : State := ((s.notify .A n).notify .B n).notify .C n

/-- Raises an event at port C and at the port of a link's own server. -/
def State.notifyServer (s : State) (l : LinkId) (n : Notice) : State := (s.notify (serverPort l) n).notify .C n

/-! ### Gain ramps (R76, R77) -/

/-- A change to target `t` with ramp length `r`. It marks the ramp as changed at this block end. -/
def Ramp.change (t r : Nat) (x : Ramp) : Ramp :=
  if r = 0 then ⟨t, t, 0, true⟩ else { x with target := t, remaining := r, changed := true }

/-- What one step adds to a ramp: trunc((target − current) / remaining). -/
def Ramp.delta (x : Ramp) : Int := ((x.target : Int) - (x.current : Int)).tdiv (x.remaining : Int)

/-- The owner's step at a block end: a ramp at rest or changed at this block end is left alone. -/
def Ramp.step (x : Ramp) : Ramp :=
  if x.remaining = 0 ∨ x.changed = true then x
  else { x with current := ((x.current : Int) + x.delta).toNat, remaining := x.remaining - 1 }

/-- Drops the mark at the block end. -/
def Ramp.settle (x : Ramp) : Ramp := { x with changed := false }

/-! ### Time (R169, log 2) -/

/-- Whether the tick runs: it starts at the end of RESET and runs through LOADING and RUN (R169, R173). -/
def State.ticking (s : State) : Bool := s.startup = .loading || s.startup = .run

/-- Ticks since the last house sample instant. -/
def State.tickOffset (s : State) : Nat := s.tick.toNat % 512

/-- How many ticks can pass before the next house sample or block end, which are commands of their own. -/
def State.runLimit (s : State) : Nat :=
  if s.ticking && decide (s.samplesDone < 32) then 511 - s.tickOffset else 0

/-- Lets ticks pass, no further than to the tick before the next house sample. -/
def State.runOn (ticks : Nat) (s : State) : State :=
  { s with tick := s.tick + BitVec.ofNat 32 (min ticks s.runLimit) }

/-- Lets time run on to a deadline when the counter reaches it before the next house sample, or has reached it
already; `none` when it still lies further ahead (R16, R17). An expiry whose deadline is a house sample's own tick is
taken after that house sample (log 25). -/
def State.reach (deadline : Tick) (s : State) : Option State :=
  let ahead := (deadline - s.tick).toNat
  if ahead ≤ s.runLimit then some { s with tick := deadline }
  else if 2147483648 ≤ ahead then some s
  else none

/-- The next house sample instant. -/
def State.nextSampleTick (s : State) : Tick := s.tick + BitVec.ofNat 32 (512 - s.tickOffset)

/-- The instant of the block end at hand: now when all 32 house samples are computed, and otherwise the end of the
present 16,384 ticks. -/
def State.blockEndTick (s : State) : Tick :=
  if s.samplesDone = 32 then s.tick else s.tick + BitVec.ofNat 32 (16384 - s.tick.toNat % 16384)

/-! ### Answers of a port engine (R153, R154) -/

/-- Holds an answer as the port's response; the request stops waiting. -/
def State.answer (s : State) (p : PortId) (code : Byte) (status : Status) (payload : List Byte) : State :=
  s.onPort p fun x =>
    { x with waiting := none, due := false, response := some ⟨status, code, payload⟩, live := none }

/-! ### Reset (R173) -/

/-- The part enters RESET: every block takes its reset condition. The nonvolatile memory, the reset cause record
and what the reference input showed last are no block's working state and stay (R170, R175, R168); the commands
that wait outside the part stay too. -/
def State.toReset (kind : ResetKind) (s : State) : State :=
  { State.reset with
    pending := s.pending
    resetKind := kind
    store := { CalStore.reset with memory := s.store.memory }
    cause := s.cause
    ref := { Reference.reset with edgeRecent := s.ref.edgeRecent } }

end Sys2Proof.Machine
end

