-- ==== Sys2Proof/Machine/Operands.lean ====
section
/-! DEFINITION. How operands are read from bytes: numbers (R164), the cyclic check (R4), the feed block (R165), its
metadata records (R166), request frames and command payloads (R164). -/

namespace Sys2Proof.Machine

/-! ### Numbers -/

/-- Two bytes, most significant first. -/
def be16 (a b : Byte) : Nat := a.toNat * 256 + b.toNat

/-- Three bytes, signed two's complement: a sample (R165). -/
def signed24 (a b c : Byte) : Int :=
  let n := a.toNat * 65536 + b.toNat * 256 + c.toNat
  if n < 8388608 then (n : Int) else (n : Int) - 16777216

/-- One byte, signed two's complement (R164). -/
def signed8 (a : Byte) : Int := if a.toNat < 128 then (a.toNat : Int) else (a.toNat : Int) - 256

/-! ### The cyclic check (R4) -/

/-- One bit of the check: shift, and the generator x^16 + x^12 + x^5 + 1 when the top bit falls out. -/
def crcBit (r : BitVec 16) : BitVec 16 := if r.msb then (r <<< 1) ^^^ 0x1021#16 else r <<< 1

/-- One byte, most significant bit first. -/
def crcByte (r : BitVec 16) (b : Byte) : BitVec 16 :=
  crcBit (crcBit (crcBit (crcBit (crcBit (crcBit (crcBit (crcBit (r ^^^ (b.setWidth 16 <<< 8)))))))))

/-- The check of a run of bytes: preset to all ones, no inversion at the end. -/
def crc16 (bytes : List Byte) : BitVec 16 := bytes.foldl crcByte 0xFFFF#16

/-! ### The feed block -/

/-- What reading a part of a block comes to: it needs more bytes, it fails a test of R6, or it is read. -/
inductive Parsed (α : Type) where
  | more
  | bad
  | ok (a : α)
  deriving Repr

/-- Reads one byte. -/
def nextByte {α : Type} (bytes : List Byte) (k : Byte → List Byte → Parsed α) : Parsed α :=
  match bytes with
  | [] => .more
  | b :: rest => k b rest

/-- Goes on with what was read. -/
def Parsed.bind {α β : Type} (x : Parsed α) (k : α → Parsed β) : Parsed β :=
  match x with
  | .more => .more
  | .bad => .bad
  | .ok a => k a

/-- A block's header (R2). -/
structure Header where
  seq : Seq
  transport : Transport
  pos : ShowPos
  tracks : Nat
  records : Nat
  deriving DecidableEq, Repr

/-- A valid feed block (R2, R3, R4). -/
structure FeedBlock where
  header : Header
  frames : List (List Int)
  records : List MetaRecord
  health : Health
  pull : Pull
  deriving DecidableEq, Repr

/-- The marker a link's blocks carry (R1, R165). -/
def marker : LinkId → Byte
  | .A => 0xE7
  | .B => 0xE7
  | .C => 0xE8

/-- The transport code in bits 1..0 of its byte (R165); 0 and 3 are unassigned. -/
def readTransport (b : Byte) : Option Transport :=
  match b.toNat % 4 with
  | 1 => some .play
  | 2 => some .hold
  | _ => none

/-- The header, each test of R6 applied as soon as its data has arrived. -/
def parseHeader (l : LinkId) (bytes : List Byte) : Parsed (Header × List Byte) :=
  nextByte bytes fun m r =>
  if m ≠ marker l then .bad else
  nextByte r fun seq r =>
  nextByte r fun t r =>
  match readTransport t with
  | none => .bad
  | some transport =>
  nextByte r fun reel r =>
  if reel.toNat < 1 ∨ 15 < reel.toNat then .bad else
  nextByte r fun f1 r =>
  nextByte r fun f0 r =>
  nextByte r fun o1 r =>
  nextByte r fun o0 r =>
  if 1999 < be16 o1 o0 then .bad else
  nextByte r fun tracks r =>
  if tracks.toNat < 1 ∨ linkWidth l < tracks.toNat then .bad else
  nextByte r fun records r =>
  if 16 < records.toNat then .bad else
  .ok (⟨seq, transport, ⟨reel.toNat, be16 f1 f0 * Config.perPicture + be16 o1 o0⟩, tracks.toNat, records.toNat⟩, r)

/-- One frame's samples, track 0 first, 3 bytes each. -/
def readSamples : Nat → List Byte → List Int
  | n + 1, a :: b :: c :: rest => signed24 a b c :: readSamples n rest
  | _, _ => []

/-- The frames of the audio field, frame 0 first, each widened with 0 to the store's frame (R10, R165). -/
def readFrames (width tracks : Nat) : Nat → List Byte → List (List Int)
  | 0, _ => []
  | n + 1, bytes =>
    (readSamples tracks (bytes.take (3 * tracks)) ++ List.replicate (width - tracks) 0)
      :: readFrames width tracks n (bytes.drop (3 * tracks))

/-- The audio field: 96 bytes for each track (R165). -/
def parseAudio (l : LinkId) (tracks : Nat) (bytes : List Byte) : Parsed (List (List Int) × List Byte) :=
  if bytes.length < 96 * tracks then .more
  else .ok (readFrames (linkWidth l) tracks 32 bytes, bytes.drop (96 * tracks))

/-- The contributions of a record's list (R166). -/
def parseList : Nat → List Byte → Parsed (List Contribution × List Byte)
  | 0, bytes => .ok ([], bytes)
  | n + 1, bytes =>
    nextByte bytes fun bus r =>
    nextByte r fun w1 r =>
    nextByte r fun w0 r =>
    (parseList n r).bind fun (rest, r) => .ok (⟨bus.toNat, be16 w1 w0⟩ :: rest, r)

/-- One metadata record (R166). A list's length is read before the record's length is judged. -/
def parseRecord (bytes : List Byte) : Parsed (MetaRecord × List Byte) :=
  nextByte bytes fun kind r =>
  if kind.toNat < 1 ∨ 5 < kind.toNat then .bad else
  nextByte r fun len r =>
  match kind.toNat with
  | 1 =>
    nextByte r fun slot r =>
    nextByte r fun track r =>
    nextByte r fun g1 r =>
    nextByte r fun g0 r =>
    nextByte r fun ramp r =>
    nextByte r fun n r =>
    if n.toNat < 1 ∨ 8 < n.toNat ∨ len.toNat ≠ 6 + 3 * n.toNat then .bad else
    (parseList n.toNat r).bind fun (list, r) =>
    .ok (.slotSet slot.toNat track.toNat (be16 g1 g0) ramp.toNat list, r)
  | 2 =>
    if len.toNat ≠ 4 then .bad else
    nextByte r fun slot r =>
    nextByte r fun g1 r =>
    nextByte r fun g0 r =>
    nextByte r fun ramp r => .ok (.slotGain slot.toNat (be16 g1 g0) ramp.toNat, r)
  | 3 =>
    nextByte r fun slot r =>
    nextByte r fun n r =>
    if n.toNat < 1 ∨ 8 < n.toNat ∨ len.toNat ≠ 2 + 3 * n.toNat then .bad else
    (parseList n.toNat r).bind fun (list, r) => .ok (.slotMove slot.toNat list, r)
  | 4 =>
    if len.toNat ≠ 2 then .bad else
    nextByte r fun slot r =>
    nextByte r fun ramp r => .ok (.slotRelease slot.toNat ramp.toNat, r)
  | _ =>
    if len.toNat ≠ 1 then .bad else
    nextByte r fun ramp r => .ok (.sceneRelease ramp.toNat, r)

/-- The metadata field: as many records as the count says (R3). -/
def parseRecords : Nat → List Byte → Parsed (List MetaRecord × List Byte)
  | 0, bytes => .ok ([], bytes)
  | n + 1, bytes =>
    (parseRecord bytes).bind fun (rec₁, r) =>
    (parseRecords n r).bind fun (rest, r) => .ok (rec₁ :: rest, r)

/-- The health code in bits 1..0 of the status word (R165). -/
def readHealth (b : Byte) : Option Health :=
  match b.toNat % 4 with
  | 0 => some .ok
  | 1 => some .degraded
  | 2 => some .fault
  | _ => none

/-- The pull code in bits 3..2 of the status word (R165). -/
def readPull (b : Byte) : Option Pull :=
  match b.toNat / 4 % 4 with
  | 0 => some .unpulled
  | 1 => some .down
  | 2 => some .up
  | _ => none

/-- The whole block, from the marker byte through the block check (R1, R6, R165). -/
def parseBlock (l : LinkId) (bytes : List Byte) : Parsed FeedBlock :=
  (parseHeader l bytes).bind fun (h, r) =>
  (parseAudio l h.tracks r).bind fun (frames, r) =>
  (parseRecords h.records r).bind fun (records, r) =>
  nextByte r fun _ r =>
  nextByte r fun status r =>
  match readHealth status, readPull status with
  | some health, some pull =>
    let checked := bytes.take (bytes.length - r.length)
    nextByte r fun c1 r =>
    nextByte r fun c0 _ =>
    if (crc16 checked).toNat ≠ be16 c1 c0 then .bad else .ok ⟨h, frames, records, health, pull⟩
  | _, _ => .bad

/-- The bytes of the data symbols before the first symbol that is not one, and whether there is such a symbol. -/
def dataRun : List Symbol → List Byte × Bool
  | [] => ([], false)
  | .data b :: rest => let (bytes, broken) := dataRun rest; (b :: bytes, broken)
  | _ :: _ => ([], true)

/-- What the symbols delivered in ASSEMBLE make of the block whose bytes so far are `got`: still in assembly (with
its bytes), malformed, or valid. A symbol that is no data symbol before the block's last byte makes it malformed. -/
def assemble (l : LinkId) (got : List Byte) (symbols : List Symbol) : Parsed FeedBlock × List Byte :=
  let run := dataRun symbols
  let bytes := got ++ run.1
  match parseBlock l bytes with
  | .more => if run.2 then (.bad, bytes) else (.more, bytes)
  | r => (r, bytes)

/-! ### Request frames and payloads (R164) -/

/-- The exclusive-or of a run of bytes. -/
def xorBytes (bytes : List Byte) : Byte := bytes.foldl (· ^^^ ·) 0

/-- A request frame that passes check 1 of R152, or the byte a BAD_FRAME answer echoes. -/
inductive Framed where
  | bad (echo : Byte)
  | ok (code : Byte) (payload : List Byte)
  deriving DecidableEq, Repr

/-- The byte that stood in the code position, or 0 when the selection ended before it (R152). -/
def codeByte : List Byte → Byte
  | _ :: code :: _ => code
  | _ => 0

/-- Check 1 of R152: start byte, complete frame, length at most 250, check byte. Bytes after the check are ignored
(R151). -/
def readFrame (sent : List Byte) : Framed :=
  match sent with
  | start :: code :: len :: rest =>
    let payload := rest.take len.toNat
    if start = 0xA5 ∧ len.toNat ≤ 250 ∧ len.toNat < rest.length ∧
        rest.getD len.toNat 0 = xorBytes (code :: len :: payload) then .ok code payload
    else .bad code
  | _ => .bad (codeByte sent)

/-- A link byte (R164). -/
def readLink (n : Byte) : Option LinkId :=
  match n.toNat with
  | 0 => some .A
  | 1 => some .B
  | 2 => some .C
  | _ => none

/-- An on or off byte (R164). -/
def readOnOff (n : Byte) : Option Bool :=
  match n.toNat with
  | 0 => some false
  | 1 => some true
  | _ => none

/-- ROOM_PUSH's arguments: a level whose presence bit is 0 is not read (R164). -/
def readPushLevels (presence p1 p0 m1 m0 : Byte) : Option Nat × Option Nat :=
  (if presence.getLsbD 0 then some (be16 p1 p0) else none, if presence.getLsbD 1 then some (be16 m1 m0) else none)

/-- A cue's action: its kind, and the arguments as for the matching command (R164). -/
def readAction (kind : Byte) (args : List Byte) : Option CueAction :=
  match kind.toNat, args with
  | 0, [l1, l0, ramp] => some (.programmeLevel (be16 l1 l0) ramp.toNat)
  | 1, [presence, p1, p0, m1, m0, ramp] =>
    let levels := readPushLevels presence p1 p0 m1 m0
    some (.roomPush levels.1 levels.2 ramp.toNat)
  | 2, [ramp] => some (.roomPop ramp.toNat)
  | 3, [group, on] => (readOnOff on).map (.muteGroup group.toNat)
  | 4, [] => some .notify
  | _, _ => none

/-- A cue's mode byte (R164). -/
def readMode (b : Byte) : Option CueMode :=
  match b.toNat with
  | 0 => some .once
  | 1 => some .repeats
  | _ => none

/-- CUE_ADD's payload (R164). The match enables above bit 2 are not read (log 13). -/
def readCue (payload : List Byte) : Option CueSpec :=
  match payload with
  | id :: enables :: reel :: f1 :: f0 :: o1 :: o0 :: mode :: kind :: args =>
    match readMode mode, readAction kind args with
    | some mode, some action =>
      some ⟨id.toNat, if enables.getLsbD 0 then some reel.toNat else none,
        if enables.getLsbD 1 then some (be16 f1 f0) else none,
        if enables.getLsbD 2 then some (be16 o1 o0) else none, mode, action⟩
    | _, _ => none
  | _ => none

/-- The `n` contributions of ROOM_SLOT_SET, which must fill the payload exactly (R164). -/
def readContributions : Nat → List Byte → Option (List Contribution)
  | 0, [] => some []
  | n + 1, bus :: w1 :: w0 :: rest => (readContributions n rest).map (⟨bus.toNat, be16 w1 w0⟩ :: ·)
  | _, _ => none

/-- A command's payload, read by its code; `none` when the length is not one the command's row allows, or a link,
on/off, kind, mode or action field holds an unassigned byte (check 4 of R152, R164). -/
def readRequest (code : Byte) (payload : List Byte) : Option Request :=
  match code.toNat, payload with
  | 0x01, [sect] => some (.getStatus sect.toNat)
  | 0x02, [sect] => some (.getCounters sect.toNat)
  | 0x03, [group] => some (.getMeters group.toNat)
  | 0x04, [] => some .getPosition
  | 0x05, [kind, slot] =>
    match kind.toNat with
    | 0 => some (.getSlot .programme slot.toNat)
    | 1 => some (.getSlot .room slot.toNat)
    | _ => none
  | 0x06, [] => some .getNotices
  | 0x07, [m1, m0] => some (.setNoticeMask (m1 ++ m0))
  | 0x08, [on] => (readOnOff on).map .setNoticeEnable
  | 0x09, [] => some .getResetCause
  | 0x10, payload => (readCue payload).map .cueAdd
  | 0x11, [id] => some (.cueCancel id.toNat)
  | 0x12, [rank] => some (.cueList rank.toNat)
  | 0x13, [] => some .cueLog
  | 0x18, [presence, p1, p0, m1, m0, ramp] =>
    let levels := readPushLevels presence p1 p0 m1 m0
    some (.roomPush levels.1 levels.2 ramp.toNat)
  | 0x19, [ramp] => some (.roomPop ramp.toNat)
  | 0x20, [link] => (readLink link).map .linkRestart
  | 0x21, [link] => (readLink link).map .linkDisable
  | 0x22, [link] => (readLink link).map .linkEnable
  | 0x28, [] => some .handover
  | 0x29, [link] => (readLink link).map .forceProgramme
  | 0x2A, [link] => (readLink link).map .setPrimary
  | 0x2B, [on] => (readOnOff on).map .setRevert
  | 0x30, [l1, l0, ramp] => some (.setProgrammeLevel (be16 l1 l0) ramp.toNat)
  | 0x31, [l1, l0, ramp] => some (.setMasterLevel (be16 l1 l0) ramp.toNat)
  | 0x32, [group, on] => (readOnOff on).map (.muteGroup group.toNat)
  | 0x33, slot :: track :: g1 :: g0 :: ramp :: n :: rest =>
    (readContributions n.toNat rest).map (.roomSlotSet slot.toNat track.toNat (be16 g1 g0) ramp.toNat)
  | 0x34, [slot, g1, g0, ramp] => some (.roomSlotGain slot.toNat (be16 g1 g0) ramp.toNat)
  | 0x35, [slot] => some (.roomSlotClear slot.toNat)
  | 0x38, [bus, t1, t0] => some (.setBusTrim bus.toNat (be16 t1 t0))
  | 0x39, [bus, d1, d0] => some (.setBusDistance bus.toNat (be16 d1 d0))
  | 0x3A, [t] => some (.setAirTemp (signed8 t))
  | 0x3B, group :: n :: rest =>
    if rest.length = n.toNat then some (.setMuteGroup group.toNat (rest.map BitVec.toNat)) else none
  | 0x40, [] => some .clearCounters
  | 0x41, [] => some .storeSettings
  | 0x42, [] => some .restart
  | 0x43, [] => some .ackResetCause
  | _, _ => none

/-- A request's command code (R164). -/
def requestCode : Request → Byte
  | .getStatus _ => 0x01
  | .getCounters _ => 0x02
  | .getMeters _ => 0x03
  | .getPosition => 0x04
  | .getSlot _ _ => 0x05
  | .getNotices => 0x06
  | .setNoticeMask _ => 0x07
  | .setNoticeEnable _ => 0x08
  | .getResetCause => 0x09
  | .cueAdd _ => 0x10
  | .cueCancel _ => 0x11
  | .cueList _ => 0x12
  | .cueLog => 0x13
  | .roomPush _ _ _ => 0x18
  | .roomPop _ => 0x19
  | .linkRestart _ => 0x20
  | .linkDisable _ => 0x21
  | .linkEnable _ => 0x22
  | .handover => 0x28
  | .forceProgramme _ => 0x29
  | .setPrimary _ => 0x2A
  | .setRevert _ => 0x2B
  | .setProgrammeLevel _ _ => 0x30
  | .setMasterLevel _ _ => 0x31
  | .muteGroup _ _ => 0x32
  | .roomSlotSet _ _ _ _ _ => 0x33
  | .roomSlotGain _ _ _ => 0x34
  | .roomSlotClear _ => 0x35
  | .setBusTrim _ _ => 0x38
  | .setBusDistance _ _ => 0x39
  | .setAirTemp _ => 0x3A
  | .setMuteGroup _ _ => 0x3B
  | .clearCounters => 0x40
  | .storeSettings => 0x41
  | .restart => 0x42
  | .ackResetCause => 0x43

/-! ### Request frames as a master sends them (R164) -/

/-- A value in one byte. -/
def byteOf (n : Nat) : Byte := BitVec.ofNat 8 n

/-- A value in two bytes, most significant first. -/
def bytes16 (n : Nat) : List Byte := [byteOf (n / 256), byteOf n]

/-- A link byte. -/
def linkByte : LinkId → Byte
  | .A => 0
  | .B => 1
  | .C => 2

/-- ROOM_PUSH's presence byte. -/
def presenceByte (programme master : Option Nat) : Byte :=
  byteOf ((if programme.isSome then 1 else 0) + (if master.isSome then 2 else 0))

/-- ROOM_PUSH's arguments; an absent level is sent as 0. -/
def pushArgs (programme master : Option Nat) (ramp : Nat) : List Byte :=
  [presenceByte programme master] ++ bytes16 (programme.getD 0) ++ bytes16 (master.getD 0) ++ [byteOf ramp]

/-- A cue action's arguments, as for the matching command. -/
def actionArgs : CueAction → List Byte
  | .programmeLevel level ramp => bytes16 level ++ [byteOf ramp]
  | .roomPush programme master ramp => pushArgs programme master ramp
  | .roomPop ramp => [byteOf ramp]
  | .muteGroup group on => [byteOf group, boolByte on]
  | .notify => []

/-- A cue's match enables byte. -/
def enablesByte (reel frame offset : Option Nat) : Byte :=
  byteOf ((if reel.isSome then 1 else 0) + (if frame.isSome then 2 else 0) + (if offset.isSome then 4 else 0))

/-- A contribution's three bytes. -/
def contributionBytes (c : Contribution) : List Byte := byteOf c.bus :: bytes16 c.weight

/-- A request's payload. -/
def requestPayload : Request → List Byte
  | .getStatus sect => [byteOf sect]
  | .getCounters sect => [byteOf sect]
  | .getMeters group => [byteOf group]
  | .getPosition => []
  | .getSlot kind slot => [match kind with | .programme => 0 | .room => 1, byteOf slot]
  | .getNotices => []
  | .setNoticeMask mask => [mask.extractLsb' 8 8, mask.extractLsb' 0 8]
  | .setNoticeEnable on => [boolByte on]
  | .getResetCause => []
  | .cueAdd c =>
    [byteOf c.id, enablesByte c.reel c.frame c.offset, byteOf (c.reel.getD 0)] ++ bytes16 (c.frame.getD 0) ++
      bytes16 (c.offset.getD 0) ++ [modeByte c.mode, (actionKind c.action).byte] ++ actionArgs c.action
  | .cueCancel id => [byteOf id]
  | .cueList rank => [byteOf rank]
  | .cueLog => []
  | .roomPush programme master ramp => pushArgs programme master ramp
  | .roomPop ramp => [byteOf ramp]
  | .linkRestart link => [linkByte link]
  | .linkDisable link => [linkByte link]
  | .linkEnable link => [linkByte link]
  | .handover => []
  | .forceProgramme target => [linkByte target]
  | .setPrimary link => [linkByte link]
  | .setRevert on => [boolByte on]
  | .setProgrammeLevel level ramp => bytes16 level ++ [byteOf ramp]
  | .setMasterLevel level ramp => bytes16 level ++ [byteOf ramp]
  | .muteGroup group on => [byteOf group, boolByte on]
  | .roomSlotSet slot track gain ramp list =>
    [byteOf slot, byteOf track] ++ bytes16 gain ++ [byteOf ramp, byteOf list.length] ++ list.flatMap contributionBytes
  | .roomSlotGain slot gain ramp => [byteOf slot] ++ bytes16 gain ++ [byteOf ramp]
  | .roomSlotClear slot => [byteOf slot]
  | .setBusTrim bus trim => byteOf bus :: bytes16 trim
  | .setBusDistance bus distance => byteOf bus :: bytes16 distance
  | .setAirTemp temp => [BitVec.ofInt 8 temp]
  | .setMuteGroup group buses => byteOf group :: byteOf buses.length :: buses.map byteOf
  | .clearCounters => []
  | .storeSettings => []
  | .restart => []
  | .ackResetCause => []

/-- The request frame that carries a request (R164). -/
def requestFrame (r : Request) : List Byte :=
  let body := requestCode r :: byteOf (requestPayload r).length :: requestPayload r
  0xA5 :: (body ++ [xorBytes body])

/-- The rights classes of R157. -/
inductive Rights where
  | shared | ownLink | server | room
  deriving DecidableEq, Repr

/-- The rights class of a command code; `none` for a code that is no command (check 2 of R152, R157). -/
def codeRights (code : Byte) : Option Rights :=
  match code.toNat with
  | 0x01 | 0x02 | 0x03 | 0x04 | 0x05 | 0x06 | 0x07 | 0x08 | 0x09 => some .shared
  | 0x10 | 0x11 | 0x12 | 0x13 | 0x18 | 0x19 => some .shared
  | 0x20 => some .ownLink
  | 0x28 => some .server
  | 0x21 | 0x22 | 0x29 | 0x2A | 0x2B | 0x30 | 0x31 | 0x32 | 0x33 | 0x34 | 0x35 => some .room
  | 0x38 | 0x39 | 0x3A | 0x3B | 0x40 | 0x41 | 0x42 | 0x43 => some .room
  | _ => none

end Sys2Proof.Machine
end

