-- ==== Sys2Proof/Machine/Store.lean ====
section
/-! DEFINITION. One link's elastic store, stamp queue, capture history and rate tracker (chapter 2), and what clears
them. -/

namespace Sys2Proof.Machine

/-! ### Positions and queues -/

/-- Adds source samples to a show position within its reel (R111). -/
def ShowPos.add (p : ShowPos) (n : Nat) : ShowPos := { p with lin := (p.lin + n) % Config.linearModulus }

/-- Keeps a queue's newest `n` entries. -/
def keepLast {α : Type} (n : Nat) (xs : List α) : List α := xs.drop (xs.length - n)

/-! ### Frame indices (R25, R26, R28) -/

/-- Frames written minus a frame index, modulo 2^32: `u` of R25, and the fill that the index would give (R26). -/
def Link.age (x : Link) (i : FrameIndex) : Nat := (x.written - i).toNat

/-- Whether a frame is held. -/
def Link.isHeld (x : Link) (i : FrameIndex) : Bool := decide (1 ≤ x.age i) && decide (x.age i ≤ x.held)

/-- Whether a frame is not yet written. -/
def Link.notYet (x : Link) (i : FrameIndex) : Bool := decide (x.age i = 0) || decide (2147483648 ≤ x.age i)

/-- The frame in the ring place of an index. -/
def Link.frame (x : Link) (i : FrameIndex) : List Int := x.ring.getD (i.toNat % 256) []

/-- The stamp of a frame index (R28). -/
def Link.stampOf (x : Link) (i : FrameIndex) : Option Stamp :=
  x.stamps.find? fun σ => decide ((i - σ.first).toNat < 32)

/-- Whether a frame index is stored (R28). -/
def Link.isStored (x : Link) (i : FrameIndex) : Bool := x.isHeld i && (x.stampOf i).isSome

/-- A link's fill; 0 when it has no read position (R26, R43). -/
def Link.fill (x : Link) : Nat :=
  match x.readPos with
  | none => 0
  | some p => x.age p.index

/-! ### Writing (R25, R27, R112) -/

/-- Writes frames into the ring from an index on. -/
def writeFrames (ring : List (List Int)) (base : FrameIndex) : List (List Int) → List (List Int)
  | [] => ring
  | f :: rest => writeFrames (ring.set (base.toNat % 256) f) (base + 1) rest

/-- The locate mark of a stamp that enters (R112): set for a PLAY stamp of link A or B that does not follow the
continuity reference by 32. -/
def locateMark (l : LinkId) (ref : Option ShowPos) (pos : ShowPos) (transport : Transport) : Bool :=
  match ref with
  | none => false
  | some r => (asProg l).isSome && decide (transport = .play) && decide (pos ≠ r.add 32)

/-- A stamp enters the queue, which keeps the newest 16, and moves the continuity reference (R27, R112). -/
def Link.pushStamp (l : LinkId) (first : FrameIndex) (pos : ShowPos) (transport : Transport) (tracks : Nat)
    (x : Link) : Link :=
  { x with
    stamps := keepLast 16 (x.stamps ++ [⟨first, pos, transport, tracks, locateMark l x.contRef pos transport⟩])
    contRef := if (asProg l).isSome && decide (transport = .play) then some pos else x.contRef }

/-- Writes one block of 32 frames with its stamp (R10 steps 2 and 3, R25). -/
def Link.writeBlock (l : LinkId) (frames : List (List Int)) (pos : ShowPos) (transport : Transport) (tracks : Nat)
    (x : Link) : Link :=
  let y := x.pushStamp l x.written pos transport tracks
  { y with ring := writeFrames x.ring x.written frames, written := x.written + 32, held := min 256 (x.held + 32) }

/-! ### Rate measurement (R29 to R31) -/

/-- A capture enters the history, which keeps the newest 9 (R29). -/
def Link.pushCapture (seq : Seq) (capture : Tick) (x : Link) : Link :=
  { x with history := keepLast 9 (x.history ++ [⟨seq, capture⟩]) }

/-- What a block's capture measures (R30). -/
inductive Measure where
  | paused
  | fault
  | accepted (offset : Int)
  deriving DecidableEq, Repr

/-- The measured offset of an accepted interval (R31). -/
def intervalOffset (interval : Nat) : Int := ((2199023255552 + interval / 2) / interval : Nat) - 16777216

/-- The measurement against the entry eight sequence numbers back (R30). -/
def Link.measure (seq : Seq) (capture : Tick) (x : Link) : Measure :=
  match x.history.find? fun e => decide (e.seq = seq - 8) with
  | none => .paused
  | some e =>
    let interval := (capture - e.capture).toNat
    if 129761 ≤ interval ∧ interval ≤ 132383 then .accepted (intervalOffset interval) else .fault

/-- What a measurement does to the tracker (R30, R31). -/
def Link.applyMeasure (m : Measure) (x : Link) : Link :=
  match m with
  | .paused => x
  | .fault => { x with counters := { x.counters with rateFaults := bump x.counters.rateFaults } }
  | .accepted offset => { x with measuredOffset := offset, measured := true }

/-! ### The step (R33, R34), lock (R36) and slip (R37, R38, R52) -/

/-- The target offset for a measured offset and a fill (R33). -/
def targetOffset (measured : Int) (fill : Nat) : Int :=
  clampInt (-Config.stepBound) Config.stepBound (measured + 8 * clampInt (-64) 64 ((fill : Int) - 128))

/-- One move of the applied offset: a quarter of the difference, truncated toward zero (R34). -/
def smooth (applied target : Int) : Int := applied + (target - applied).tdiv 4

/-- The fill correction and the smoothing at a block handed on in LOCKED (R33, R34). -/
def Link.correct (x : Link) : Link :=
  let target := targetOffset x.measuredOffset x.fill
  { x with target := target, applied := smooth x.applied target }

/-- The read position that a lock or a slip sets (R36, R37). -/
def Link.freshPos (x : Link) : ReadPos := ⟨x.written - 128, 0⟩

/-- The lock (R12, R36); the state itself is set with its notice. -/
def Link.lock (x : Link) : Link :=
  let target := targetOffset x.measuredOffset 128
  { x with
    run := 0, readPos := some x.freshPos, fresh := .lock, departing := none, fadeIn := false
    target := target, applied := target }

/-- The departing position after a slip when `done` house samples of the block are computed (R38, R50, R52). -/
def Link.departAt (done : Nat) (x : Link) : Option Departing :=
  match x.fresh with
  | .no => x.readPos.map fun p => ⟨p, if x.fadeIn then done else 32, 32 - done, 0⟩
  | _ => x.departing

/-- The read index from before the first slip of the present freshness, when a slip is made. -/
def Link.slipOrigin (x : Link) : FrameIndex :=
  match x.fresh, x.readPos with
  | .slip origin, _ => origin
  | _, some p => p.index
  | _, none => x.freshPos.index

/-- A slip (R37, R52). -/
def Link.slip (done : Nat) (x : Link) : Link :=
  { x with
    departing := x.departAt done, readPos := some x.freshPos, fresh := .slip x.slipOrigin, fadeIn := false
    counters := { x.counters with slips := bump x.counters.slips } }

/-- Whether a fill check finds the fill outside the slip limits (R32). -/
def Link.mustSlip (x : Link) : Bool :=
  x.readPos.isSome && (decide (x.fill < 48) || decide (208 < x.fill))

/-! ### Fades around a concealed gap (R39) -/

/-- A sample faded out in frame `f` of the block before a gap. -/
def gapOut (f : Nat) (v : Int) : Int := (v * (31 - (f : Int)) + 16) / 32

/-- A sample faded in in frame `f` of the block that closes a gap. -/
def gapIn (f : Nat) (v : Int) : Int := (v * ((f : Int) + 1) + 16) / 32

/-- Fades out frame `f` of the last block written, in place, when it lies above the reader's reach. -/
def fadeFrameOut (reader : FrameIndex) (base : FrameIndex) (ring : List (List Int)) (f : Nat) : List (List Int) :=
  let i := base + BitVec.ofNat 32 f
  let above := (i - (reader + 2)).toNat
  if 1 ≤ above ∧ above < 2147483648 then ring.modify (i.toNat % 256) (·.map (gapOut f)) else ring

/-- Fades out the last block written. -/
def Link.fadeOutLast (x : Link) : Link :=
  match x.readPos with
  | none => x
  | some p => { x with ring := (List.range 32).foldl (fadeFrameOut p.index (x.written - 32)) x.ring }

/-- The frames of the block that closes a gap. -/
def fadeFramesIn (frames : List (List Int)) : List (List Int) :=
  frames.mapIdx fun f samples => samples.map (gapIn f)

/-! ### Clearing (R12, R18, R42) -/

/-- What an acquisition run's restart empties (R12). -/
def Link.clearRun (x : Link) : Link := { x with stamps := [], history := [], queue := [], contRef := none }

/-- What entry into SEARCH or DISABLED empties, clears and stops (R18, R21, R42). The step offset that the interpolator
has taken is cleared with the rest (log 33). -/
def Link.cleared (x : Link) : Link :=
  { x with
    run := 0, gapDeadline := none, holdDeadline := none, held := 0, stamps := [], history := [], queue := []
    contRef := none, measuredOffset := 0, measured := false, target := 0, applied := 0, taken := 0
    readPos := none, fresh := .no, departing := none, fadeIn := false }

end Sys2Proof.Machine
end

