-- ==== Sys2Proof/Machine/Receiver.lean ====
section
/-! DEFINITION. The feed receivers (chapter 1): the reception phases, the link state machine, the handing on of blocks
with the tracker's work (chapter 2), the timers and the three link commands. -/

namespace Sys2Proof.Machine

/-! ### Link state -/

/-- Sets a link's state; a change raises LINK_STATE at all three ports (R9). -/
def State.setLinkState (l : LinkId) (st : LinkState) (s : State) : State :=
  if (s.link l).state = st then s
  else (s.onLink l fun x => { x with state := st }).notifyAll .linkState

/-- Entry into SEARCH (R18). What becomes of reception is the caller's. -/
def State.enterSearch (l : LinkId) (s : State) : State := (s.onLink l Link.cleared).setLinkState l .search

/-- Sets a receiver's phase. -/
def State.setPhase (l : LinkId) (ph : Phase) (s : State) : State := s.onLink l fun x => { x with phase := ph }

/-! ### The parts of handing a block on (R10) -/

/-- One record of an accepted block: offered to the queue on link A or B, ignored and counted on link C (R20). -/
def State.offerRecord (l : LinkId) (tag : FrameIndex) (s : State) (r : MetaRecord) : State :=
  match asProg l with
  | none => s.onLink l fun x => { x with counters := { x.counters with ignored := bump x.counters.ignored } }
  | some _ =>
    if (s.link l).queue.length < 64 then s.onLink l fun x => { x with queue := x.queue ++ [⟨tag, r⟩] }
    else
      (s.onLink l fun x => { x with counters := { x.counters with dropped := bump x.counters.dropped } }).notifyServer
        l .metadataDrop

/-- The records of a block, in order (R20). -/
def State.offerRecords (l : LinkId) (tag : FrameIndex) (rs : List MetaRecord) (s : State) : State :=
  rs.foldl (State.offerRecord l tag) s

/-- Header and trailer reach the status record; a change of health or pull raises SERVER_STATUS (R19). -/
def State.recordStatus (l : LinkId) (b : FeedBlock) (s : State) : State :=
  let x := s.link l
  let s := s.onLink l fun x =>
    { x with
      seq := b.header.seq, tracks := b.header.tracks, transport := b.header.transport, health := b.health
      pull := b.pull }
  if x.health = b.health ∧ x.pull = b.pull then s else s.notifyAll .serverStatus

/-- Steps 2 to 5 of R10, with the frames as they are to be written. -/
def State.handOn (l : LinkId) (b : FeedBlock) (frames : List (List Int)) (s : State) : State :=
  let tag := (s.link l).written
  ((s.onLink l (Link.writeBlock l frames b.header.pos b.header.transport b.header.tracks)).offerRecords
    l tag b.records).recordStatus l b

/-- Step 7 of R10: the gap timer is restarted from the block's capture (R16). -/
def Link.restartGap (capture : Tick) (x : Link) : Link := { x with gapDeadline := some (capture + 49152) }

/-- The fill check after a write to a running link, and the slip with its notice (R32, R37). -/
def State.slipCheck (l : LinkId) (s : State) : State :=
  if (s.link l).mustSlip then (s.onLink l (Link.slip s.samplesDone)).notifyServer l .slip else s

/-! ### ACQUIRE (R11, R12) -/

/-- The first block of a run. -/
def State.beginRun (l : LinkId) (b : FeedBlock) (capture : Tick) (s : State) : State :=
  ((s.onLink l fun x => { x with run := 1 }).handOn l b b.frames).onLink l fun x =>
    (x.pushCapture b.header.seq capture).restartGap capture

/-- A run restarted by this block after a RATE_FAULT: its capture, stamp and records re-enter the emptied queues
(R12; log 9). Link C has no metadata queue, and its records were counted as the block was handed on (R20). -/
def State.reenterRun (l : LinkId) (b : FeedBlock) (capture : Tick) (s : State) : State :=
  let tag := (s.link l).written - 32
  let s := s.onLink l fun x =>
    { (((x.clearRun.pushStamp l tag b.header.pos b.header.transport b.header.tracks).pushCapture b.header.seq capture))
      with run := 1 }
  match asProg l with
  | none => s
  | some _ => s.offerRecords l tag b.records

/-- A block in step in ACQUIRE (R12): the run grows, the measurement is made, and the ninth block locks. -/
def State.extendRun (l : LinkId) (b : FeedBlock) (capture : Tick) (s : State) : State :=
  let s := (s.handOn l b b.frames).onLink l fun x =>
    { (x.pushCapture b.header.seq capture).restartGap capture with run := x.run + 1 }
  let m := (s.link l).measure b.header.seq capture
  let s := s.onLink l (Link.applyMeasure m)
  match m with
  | .paused => s
  | .fault => s.reenterRun l b capture
  | .accepted _ => if 9 ≤ (s.link l).run then (s.onLink l Link.lock).setLinkState l .locked else s

/-! ### LOCKED (R13, R15, R32) -/

/-- The stamp position and transport that a concealed block takes from the previous block written (R15). A running
link always has a stamp; log 29 says what stands here without one. -/
def Link.concealedStamp (x : Link) : ShowPos × Transport × Nat :=
  match x.stamps.getLast? with
  | some σ => (σ.pos.add 32, σ.transport, σ.tracks)
  | none => (⟨0, 0⟩, x.transport, x.tracks)

/-- Writes one concealed block (R15). -/
def Link.writeConcealed (l : LinkId) (x : Link) : Link :=
  let σ := x.concealedStamp
  let y := x.writeBlock l (List.replicate 32 (List.replicate (linkWidth l) 0)) σ.1 σ.2.1 σ.2.2
  { y with seq := x.seq + 1, counters := { x.counters with concealed := bump x.counters.concealed } }

/-- Conceals `g` missing blocks, each checked for a slip as its own write (R15, R32). -/
def State.conceal (l : LinkId) : Nat → State → State
  | 0, s => s
  | g + 1, s => State.conceal l g ((s.onLink l (Link.writeConcealed l)).slipCheck l)

/-- A block handed on in LOCKED, in the order of R32. -/
def State.handOnLocked (l : LinkId) (b : FeedBlock) (capture : Tick) (frames : List (List Int)) (s : State) : State :=
  let s := (s.handOn l b frames).onLink l (Link.pushCapture b.header.seq capture)
  let s := s.onLink l fun x => x.applyMeasure (x.measure b.header.seq capture)
  (s.slipCheck l).onLink l fun x => x.correct.restartGap capture

/-- A block whose step is in step or concealable, on a LOCKED link (R13, R39). -/
def State.takeLocked (l : LinkId) (b : FeedBlock) (capture : Tick) (d : Nat) (s : State) : State :=
  if d = 1 then s.handOnLocked l b capture b.frames
  else (((s.onLink l Link.fadeOutLast).conceal l (d - 1)).handOnLocked l b capture (fadeFramesIn b.frames))

/-! ### Blocks (R7, R10 to R14) -/

/-- The step of a block: its sequence number less that of the last block written, modulo 256 (R10). -/
def Link.seqStep (x : Link) (seq : Seq) : Nat := (seq - x.seq).toNat

/-- A valid block is accepted, counted and taken by its link's state rule (R10 to R14). The records of a link C block are
counted as ignored where the block is handed on, and those of one discarded for its step are not (log 36). -/
def State.acceptBlock (l : LinkId) (b : FeedBlock) (capture : Tick) (s : State) : State :=
  let d := (s.link l).seqStep b.header.seq
  let s := s.onLink l fun x => { x with counters := { x.counters with valid := bump x.counters.valid } }
  match (s.link l).state with
  | .disabled => s
  | .search => (s.setLinkState l .acquire).beginRun l b capture
  | .acquire => if d = 1 then s.extendRun l b capture else (s.onLink l Link.clearRun).beginRun l b capture
  | .locked => if 1 ≤ d ∧ d ≤ 3 then s.takeLocked l b capture d else s.enterSearch l
  | .holdover =>
    if 1 ≤ d ∧ d ≤ 3 then
      ((s.setLinkState l .locked).onLink l fun x => { x with holdDeadline := none }).takeLocked l b capture d
    else s.enterSearch l

/-- A malformed block is dropped and counted; the receiver returns to HUNT, and ACQUIRE goes to SEARCH (R7). -/
def State.dropMalformed (l : LinkId) (s : State) : State :=
  let s := s.onLink l fun x =>
    { x with phase := .hunt, counters := { x.counters with malformed := bump x.counters.malformed } }
  if (s.link l).state = .acquire then s.enterSearch l else s

/-! ### The timers (R16, R17) -/

/-- The gap timer's expiry on a link whose deadline is reached (R16). -/
def State.expireGap (l : LinkId) (deadline : Tick) (s : State) : State :=
  match (s.link l).state with
  | .locked =>
    (s.onLink l fun x => { x with gapDeadline := none, holdDeadline := some (deadline + 786432) }).setLinkState
      l .holdover
  | .acquire => s.enterSearch l
  | _ => s

/-- The holdover timer's expiry (R17). -/
def State.expireHoldover (l : LinkId) (s : State) : State :=
  if (s.link l).state = .holdover then s.enterSearch l else s

/-! ### The link commands as they are taken (section 1.8) -/

/-- LINK_RESTART taken (R22). -/
def takeLinkRestart (p : PortId) (l : LinkId) (s : State) : State :=
  ((if (s.link l).state = .search then s else s.enterSearch l).setPhase l .hunt).answer p 0x20 .ok []

/-- LINK_DISABLE taken (R21). -/
def takeLinkDisable (p : PortId) (l : LinkId) (s : State) : State :=
  (if (s.link l).state = .disabled then s
    else (((s.onLink l Link.cleared).setPhase l .off).setLinkState l .disabled)).answer p 0x21 .ok []

/-- LINK_ENABLE taken (R21). -/
def takeLinkEnable (p : PortId) (l : LinkId) (s : State) : State :=
  (if (s.link l).state = .disabled then (s.enterSearch l).setPhase l .hunt else s).answer p 0x22 .ok []

end Sys2Proof.Machine
end

