-- ==== Sys2Proof/Machine/Selector.lean ====
section
/-! DEFINITION. The programme selector (chapter 4): fitness, alignment, the block-end evaluation, crossfades and the
requests that move the programme. -/

namespace Sys2Proof.Machine

/-! ### Fitness and the programme -/

/-- Whether a programme link is fit (R55). -/
def State.fit (s : State) (x : ProgLink) : Bool :=
  decide ((s.link (progLink x)).state = .locked) && decide ((s.link (progLink x)).health ≠ .fault)

/-- The programme link of a selector state (R54). -/
def programmeOf : SelState → Option ProgLink
  | .idle => none
  | .on x => some x
  | .crossfade _ inc _ => some inc

/-- The standby of a selector state (R54). -/
def standbyOf : SelState → Option ProgLink
  | .idle => none
  | .on x => some (otherProg x)
  | .crossfade _ inc _ => some (otherProg inc)

/-- The closing programme: the programme link of the block that ends (R70). -/
def State.closing (s : State) : Option ProgLink := programmeOf s.sel.inForce

/-- The opening programme: the programme link of the block that follows (R70). -/
def State.opening (s : State) : Option ProgLink := programmeOf s.sel.cur

/-- A link's weight in quarters in the block that a selector state plays (R63). -/
def weightIn (x : ProgLink) : SelState → Nat
  | .idle => 0
  | .on y => if x = y then 4 else 0
  | .crossfade out inc k => if x = inc then k else if out = some x then 4 - k else 0

/-- Changes the selector. -/
def State.onSel (s : State) (f : Selector → Selector) : State := { s with sel := f s.sel }

/-! ### Programme values (R63, R70) -/

/-- The blend of two outputs at step `k` (R63). -/
def blend (k : Nat) (xFrom xTo : Int) : Int := (xFrom * (4 - (k : Int)) + xTo * (k : Int) + 2) / 4

/-- A programme link's output among the outputs of links A and B. -/
def outputOf (outA outB : List Int) : ProgLink → List Int
  | .A => outA
  | .B => outB

/-- The programme values that the selector hands on in a state (R63, R70). -/
def programmeValues (st : SelState) (outA outB : List Int) : List Int :=
  match st with
  | .idle => List.replicate Config.programmeTracks 0
  | .on x => outputOf outA outB x
  | .crossfade none inc k => (outputOf outA outB inc).map fun v => blend k 0 v
  | .crossfade (some out) inc k => List.zipWith (blend k) (outputOf outA outB out) (outputOf outA outB inc)

/-! ### Show positions of frames and the start index (R111, R113, R116) -/

/-- The instant of the show that a frame stands for, as alignment takes it: the stamp's position plus (i − W)
(R57, R111). R2's "32 source samples further on for each f" is read as one source sample for each frame (log 32). -/
def Stamp.posOf (σ : Stamp) (i : FrameIndex) : ShowPos := σ.pos.add (i - σ.first).toNat

/-- The single position of a reader at a frame index: inside a HOLD block the stamp's own (R111). -/
def Stamp.readerPos (σ : Stamp) (i : FrameIndex) : ShowPos :=
  match σ.transport with
  | .play => σ.posOf i
  | .hold => σ.pos

/-- A link's read index as the present block end has it. A slip made while a block end stands open falls in the block
that begins, as it follows the interpolator's work (R50), so it does not move the index that block starts from
(R113, R114; log 4). -/
def State.indexHere (x : ProgLink) (s : State) : Option FrameIndex :=
  (s.link (progLink x)).readPos.map fun p =>
    match (s.link (progLink x)).fresh with
    | .slip origin => if s.blockEndOpen then origin else p.index
    | _ => p.index

/-- The stamp of the opening programme's read index. -/
def State.openingStamp (s : State) : Option (FrameIndex × Stamp) :=
  match s.opening with
  | none => none
  | some x =>
    match s.indexHere x with
    | none => none
    | some i => ((s.link (progLink x)).stampOf i).map fun σ => (i, σ)

/-- Changes the show position block. -/
def State.onShow (s : State) (f : Show → Show) : State := { s with cueing := f s.cueing }

/-- Clears every cue's match flag. -/
def clearFlags (cues : List Cue) : List Cue := cues.map fun c => { c with matched := false }

/-- The effect of a LOCATE from the selector (R116). -/
def State.applyLocate (s : State) : State :=
  let mark := s.openingStamp.map fun (i, σ) => σ.readerPos i
  s.onShow fun v => { v with cues := clearFlags v.cues, hwm := mark, locateHeld := false }

/-- A LOCATE of the selector: held until the show position block's work when that is still to come at this block
end, and otherwise applied when it arrives (R116). -/
def State.locate (s : State) : State :=
  if s.cueing.workDone then s.applyLocate else s.onShow fun v => { v with locateHeld := true }

/-- The start index for the next block: the opening programme's read index, taken when the block end closes and so after
every change taken at it (R113; log 4). -/
def State.captureStart (s : State) : State :=
  let start : Option (ProgLink × FrameIndex) :=
    match s.opening with
    | none => none
    | some x => (s.indexHere x).map fun i => (x, i)
  s.onShow fun v => { v with start := start }

/-! ### Pruning (R58) -/

/-- Whether a tag is at or below a read index (R58, R80). -/
def atOrBelow (tag n : FrameIndex) : Bool := decide ((n - tag).toNat < 2147483648)

/-- Removes the records at or below the link's read index. -/
def Link.prune (x : Link) : Link :=
  match x.readPos with
  | none => x
  | some p => { x with queue := x.queue.filter fun t => !atOrBelow t.tag p.index }

/-- Prunes a link's queue, unless it is the closing programme's, which is left for the scene table (R58). -/
def State.prune (x : ProgLink) (s : State) : State :=
  if s.closing = some x then s else s.onLink (progLink x) Link.prune

/-- Step 4 of the evaluation, for one link: a running link that is not the programme (R58). -/
def State.pruneStandby (x : ProgLink) (s : State) : State :=
  if (s.link (progLink x)).running = true ∧ s.opening ≠ some x then s.prune x else s

/-! ### Crossfades (R62, R65) -/

/-- The selector's state for the next block, set at this block end. -/
def State.setSel (st : SelState) (s : State) : State := s.onSel fun v => { v with cur := st, setHere := true }

/-- Entry into a crossfade (R62). -/
def State.enterCrossfade (out : Option ProgLink) (inc : ProgLink) (s : State) : State :=
  let s := ((s.setSel (.crossfade out inc 1)).onSel fun v => { v with revert := 0 }).prune inc
  let s := s.notifyAll .programme
  match out with
  | none => s.locate
  | some _ => s

/-- A reversal back to link `back`, away from `away`, at step `k` (R65): at 0 quarters left to go, ON directly. -/
def State.reverse (away back : ProgLink) (k : Nat) (s : State) : State :=
  ((s.setSel (if k = 0 then .on back else .crossfade (some away) back k)).prune back).notifyAll .programme

/-! ### Alignment (R41, R57) -/

/-- The store's judgement of an offered position (R41). -/
def Link.takesOffer (x : Link) (i : FrameIndex) : Bool :=
  x.running && x.isStored i && decide (48 ≤ x.age i) && decide (x.age i ≤ 208)

/-- The candidate frame that a stamp offers for a show position (R57): the frame of its block that stands for the
position, when it is stored. -/
def Link.candidate (x : Link) (pos : ShowPos) (σ : Stamp) : Option FrameIndex :=
  let k := (pos.lin + Config.linearModulus - σ.pos.lin % Config.linearModulus) % Config.linearModulus
  let m := σ.first + BitVec.ofNat 32 k
  if σ.pos.reel = pos.reel ∧ k < 32 ∧ x.isStored m = true then some m else none

/-- How far a candidate lies from the present read index, modulo 2^32 either way (R57). -/
def indexDistance (m n : FrameIndex) : Nat := min (m - n).toNat (n - m).toNat

/-- The nearest candidate; a tie goes to the one sent earlier (R57). -/
def nearest (n : FrameIndex) (best : Option FrameIndex) (m : FrameIndex) : Option FrameIndex :=
  match best with
  | none => some m
  | some b => if indexDistance m n < indexDistance b n then some m else some b

/-- The programme's show position and fraction for alignment (R57). -/
def State.programmePos (s : State) : Option (ShowPos × Nat) :=
  match s.opening with
  | none => none
  | some x =>
    match (s.link (progLink x)).readPos with
    | none => none
    | some p => ((s.link (progLink x)).stampOf p.index).map fun σ => (σ.posOf p.index, p.frac)

/-- The position to offer the standby (R57). -/
def Link.offerFor (x : Link) (pos : ShowPos) : Option FrameIndex :=
  match x.readPos with
  | none => none
  | some p => (x.stamps.filterMap (x.candidate pos)).foldl (nearest p.index) none

/-- Sets the alignment status. -/
def State.setAlign (a : AlignStatus) (s : State) : State := s.onSel fun v => { v with align := a }

/-- Offers a position to the standby and sets the status by whether it was taken (R41, R57). -/
def State.offer (y : ProgLink) (m : FrameIndex) (frac : Nat) (s : State) : State :=
  if (s.link (progLink y)).takesOffer m then
    (s.onLink (progLink y) fun x => { x with readPos := some ⟨m, frac⟩ }).setAlign .aligned
  else s.setAlign .unaligned

/-- Step 1 of the evaluation: the standby is aligned to the programme (R57). -/
def State.alignStandby (s : State) : State :=
  match standbyOf s.sel.cur with
  | none => s.setAlign .notReady
  | some y =>
    if s.fit y then
      match s.programmePos with
      | none => s.setAlign .unaligned
      | some (pos, frac) =>
        match (s.link (progLink y)).offerFor pos with
        | none => s.setAlign .unaligned
        | some m => s.offer y m frac
    else s.setAlign .notReady

/-! ### The block-end evaluation (R56) -/

/-- Sets the revert counter. -/
def State.setRevertCount (n : Nat) (s : State) : State := s.onSel fun v => { v with revert := n }

/-- Step 2: a crossfade that played its step is reversed, moved on or completed (R64, R65). -/
def State.crossfadeStep (s : State) : State :=
  match s.sel.cur with
  | .crossfade out inc k =>
    let s := s.setRevertCount 0
    if s.sel.setHere then s
    else if out = some (otherProg inc) ∧ s.fit inc = false ∧ s.fit (otherProg inc) = true then
      s.reverse inc (otherProg inc) (4 - k)
    else if k < 4 then s.setSel (.crossfade out inc (k + 1))
    else s.setSel (.on inc)
  | _ => s

/-- The decision of IDLE (R59). -/
def State.decideIdle (s : State) : State :=
  let s := s.setRevertCount 0
  if s.fit s.sel.primary then s.enterCrossfade none s.sel.primary
  else if s.fit (otherProg s.sel.primary) then s.enterCrossfade none (otherProg s.sel.primary)
  else s

/-- The revert test in ON(x) with x fit (R61). -/
def State.revertTest (x : ProgLink) (s : State) : State :=
  let v := s.sel
  let n := if x ≠ v.primary ∧ s.fit v.primary = true ∧ v.align = .aligned then min 256 (v.revert + 1) else 0
  if n = 256 ∧ v.autoRevert = true ∧ v.manualHold = false then s.enterCrossfade (some x) v.primary
  else s.setRevertCount n

/-- The decision of ON(x) (R60). -/
def State.decideOn (x : ProgLink) (s : State) : State :=
  if s.fit x then s.revertTest x
  else if s.fit (otherProg x) then
    if s.sel.align = .aligned then s.enterCrossfade (some x) (otherProg x) else s.enterCrossfade none (otherProg x)
  else if (s.link (progLink x)).running then s.setRevertCount 0
  else ((s.setSel .idle).setRevertCount 0).notifyAll .programme

/-- Step 3: outside a crossfade, the decision of the state. -/
def State.decideStep (s : State) : State :=
  match s.sel.cur with
  | .idle => s.decideIdle
  | .on x => s.decideOn x
  | .crossfade _ _ _ => s

/-- The block-end evaluation, steps 1 to 4 (R56). -/
def State.evaluate (s : State) : State :=
  ((s.alignStandby.crossfadeStep.decideStep).pruneStandby .A).pruneStandby .B

/-! ### The selector's requests as they are taken (section 4.6) -/

/-- HANDOVER taken (R66). -/
def takeHandover (p : PortId) (s : State) : State :=
  match portProg p, s.sel.cur with
  | some own, .on x =>
    if own = x then
      if s.fit (otherProg x) = true ∧ s.sel.align = .aligned then
        (s.enterCrossfade (some x) (otherProg x)).answer p 0x28 .ok []
      else s.answer p 0x28 .notReady []
    else s.answer p 0x28 .notActive []
  | some own, .crossfade _ inc _ =>
    if own = inc then s.answer p 0x28 .notReady [] else s.answer p 0x28 .notActive []
  | _, _ => s.answer p 0x28 .notActive []

/-- The reversal that FORCE_PROGRAMME makes of CROSSFADE(target, inc, k) (R67): that of R65 when the crossfade played
its step k, and otherwise back to the weight that the target had in the block now ending. -/
def State.forceReverse (target inc : ProgLink) (k : Nat) (s : State) : State :=
  if s.sel.setHere then
    let w := weightIn target s.sel.inForce
    if w = 4 then s.reverse inc target 0 else s.reverse inc target (max w 1)
  else s.reverse inc target (4 - k)

/-- What FORCE_PROGRAMME does to the selector's state for a fit target (R67). -/
def State.force (target : ProgLink) (s : State) : State :=
  match s.sel.cur with
  | .idle => s.enterCrossfade none target
  | .on x =>
    if x = target then s
    else if s.sel.align = .aligned then s.enterCrossfade (some x) target
    else s.enterCrossfade none target
  | .crossfade out inc k =>
    if inc = target then s
    else if out = some target then s.forceReverse target inc k
    else s.enterCrossfade none target

/-- FORCE_PROGRAMME taken (R67). -/
def takeForceProgramme (p : PortId) (target : LinkId) (s : State) : State :=
  match asProg target with
  | none => s.answer p 0x29 .badArgument []
  | some x =>
    if s.fit x then
      ((s.onSel fun v => { v with manualHold := true, revert := 0 }).force x).answer p 0x29 .ok []
    else s.answer p 0x29 .notReady []

/-- SET_PRIMARY taken (R68). -/
def takeSetPrimary (p : PortId) (l : LinkId) (s : State) : State :=
  match asProg l with
  | none => s.answer p 0x2A .badArgument []
  | some x => (s.onSel fun v => { v with primary := x, revert := 0 }).answer p 0x2A .ok []

/-- SET_REVERT taken (R68). -/
def takeSetRevert (p : PortId) (on : Bool) (s : State) : State :=
  (s.onSel fun v => { v with autoRevert := on, manualHold := false }).answer p 0x2B .ok []

end Sys2Proof.Machine
end

