-- ==== Sys2Proof/Machine/Scene.lean ====
section
/-! DEFINITION. The scene table (chapter 5): slots, the contribution pool, the application of metadata records, the
room slot commands, and the effective gains handed to the mix engine (R93, R98, R99). -/

namespace Sys2Proof.Machine

/-! ### Lists (R74) -/

/-- Puts a contribution into a list in ascending bus order. -/
def insertByBus (c : Contribution) : List Contribution → List Contribution
  | [] => [c]
  | d :: rest => if c.bus ≤ d.bus then c :: d :: rest else d :: insertByBus c rest

/-- A list in ascending bus order, as the scene table stores it (R74). -/
def sortByBus : List Contribution → List Contribution
  | [] => []
  | c :: rest => insertByBus c (sortByBus rest)

/-- Whether two contributions name the same bus. -/
def repeatsBus (list : List Contribution) : Bool := decide (¬ (list.map Contribution.bus).Nodup)

/-! ### Slots -/

/-- The programme slot of a number. -/
def Scene.slot (sc : Scene) (i : Nat) : Slot := sc.slots.getD i Slot.reset

/-- Replaces a programme slot and accounts for the pool: its old list is returned and its new one taken (R74). -/
def Scene.replaceSlot (sc : Scene) (i : Nat) (x : Slot) : Scene :=
  { sc with slots := sc.slots.set i x, free := sc.free + (sc.slot i).list.length - x.list.length }

/-- A slot made FREE: no list, its ramp at 0, 0 and 0, its track kept (R73). -/
def Slot.freed (x : Slot) : Slot := ⟨.free, x.track, Ramp.rest 0, []⟩

/-- Whether a step ends this slot's release (R79, R87). -/
def Slot.endsRelease (x : Slot) : Bool :=
  decide (x.state = .releasing) && decide (x.ramp.remaining = 1) && !x.ramp.changed

/-- Step 1 of the block-end work for a programme slot (R79). -/
def Slot.stepRamp (x : Slot) : Slot := if x.endsRelease then x.freed else { x with ramp := x.ramp.step }

/-- Step 1 of the block-end work for a room slot (R79). -/
def RoomSlot.stepRamp (x : RoomSlot) : RoomSlot := { x with ramp := x.ramp.step }

/-- The pool entries that a list of slots holds (R74). -/
def entriesHeld (slots : List Slot) : Nat := (slots.map fun x => x.list.length).sum

/-- Step 1 of the block-end work: every slot ramp is stepped; ended releases return their entries (R79). -/
def Scene.stepRamps (sc : Scene) : Scene :=
  let slots := sc.slots.map Slot.stepRamp
  { sc with
    slots := slots, free := sc.free + entriesHeld sc.slots - entriesHeld slots
    roomSlots := sc.roomSlots.map RoomSlot.stepRamp }

/-! ### Checks on records (R83) -/

/-- The checks on a list for a slot: bus range, repeated bus, weight range, pool. -/
def Scene.listReject (sc : Scene) (i : Nat) (list : List Contribution) : Option Reject :=
  if list.any (fun c => decide (63 < c.bus)) then some .busRange
  else if repeatsBus list then some .busDuplicate
  else if list.any (fun c => decide (Config.unity < c.weight)) then some .weightRange
  else if sc.free + (if (sc.slot i).state = .free then 0 else (sc.slot i).list.length) < list.length then
    some .poolShort
  else none

/-- The first reason of R83 that holds for a record, with the current track count. -/
def Scene.reject (sc : Scene) (tracks : Nat) : MetaRecord → Option Reject
  | .slotSet slot track _ _ list =>
    if 127 < slot then some .slotRange
    else if tracks ≤ track then some .trackRange
    else sc.listReject slot list
  | .slotGain slot _ _ =>
    if 127 < slot then some .slotRange else if (sc.slot slot).state = .free then some .slotFree else none
  | .slotMove slot list =>
    if 127 < slot then some .slotRange
    else if (sc.slot slot).state = .free then some .slotFree
    else sc.listReject slot list
  | .slotRelease slot _ =>
    if 127 < slot then some .slotRange else if (sc.slot slot).state = .free then some .slotFree else none
  | .sceneRelease _ => none

/-- A reason's place among the rejection counters (R83, R162). -/
def Reject.place : Reject → Nat
  | .slotRange => 0
  | .slotFree => 1
  | .trackRange => 2
  | .busRange => 3
  | .busDuplicate => 4
  | .weightRange => 5
  | .poolShort => 6

/-! ### The record kinds (R84 to R88) -/

/-- A release with ramp length `r` (R87). -/
def Slot.release (r : Nat) (x : Slot) : Slot :=
  if r = 0 then x.freed else { x with state := .releasing, ramp := x.ramp.change 0 r }

/-- A SCENE_RELEASE as it acts on one slot (R88). -/
def Slot.sceneRelease (r : Nat) (x : Slot) : Slot := if x.state = .active then x.release r else x

/-- What a record that passes its checks does (R84 to R88). -/
def Scene.act (sc : Scene) : MetaRecord → Scene
  | .slotSet slot track gain ramp list =>
    sc.replaceSlot slot ⟨.active, track, (sc.slot slot).ramp.change gain ramp, sortByBus list⟩
  | .slotGain slot gain ramp =>
    let x := sc.slot slot
    sc.replaceSlot slot { x with state := .active, ramp := x.ramp.change gain ramp }
  | .slotMove slot list => sc.replaceSlot slot { sc.slot slot with list := sortByBus list }
  | .slotRelease slot ramp => sc.replaceSlot slot ((sc.slot slot).release ramp)
  | .sceneRelease ramp =>
    let slots := sc.slots.map (Slot.sceneRelease ramp)
    { sc with slots := slots, free := sc.free + entriesHeld sc.slots - entriesHeld slots }

/-- One record of the closing programme's queue: checked, then it acts or is rejected (R83). -/
def State.applyRecord (x : ProgLink) (tracks : Nat) (s : State) (t : Tagged) : State :=
  match s.scene.reject tracks t.body with
  | none => { s with scene := s.scene.act t.body }
  | some reason =>
    (s.onLink (progLink x) fun y =>
      { y with counters := { y.counters with rejected := y.counters.rejected.modify reason.place bump } }).notifyServer
        (progLink x) .metadataReject

/-! ### The block-end work (R79 to R81) -/

/-- The read index of the closing programme as the ending block left it, with the current track count; `none` when
nothing is to be applied (R80, R83). It is taken before any offer of alignment at the same block end. -/
def State.dueIndex (s : State) : Option (ProgLink × FrameIndex × Nat) :=
  match s.closing with
  | none => none
  | some x =>
    let y := s.link (progLink x)
    match y.readPos with
    | none => none
    | some p =>
      if y.fresh = .lock then none
      else some (x, p.index, match y.stampOf p.index with | some σ => σ.tracks | none => 0)

/-- Step 2: the due records are applied one at a time in queue order (R80). -/
def State.applyDue (x : ProgLink) (n : FrameIndex) (tracks : Nat) (s : State) : State :=
  let queue := (s.link (progLink x)).queue
  let due := queue.takeWhile fun t => atOrBelow t.tag n
  let s := s.onLink (progLink x) fun y => { y with queue := y.queue.dropWhile fun t => atOrBelow t.tag n }
  due.foldl (State.applyRecord x tracks) s

/-- Steps 1 and 2 of the scene table's block-end work (R79); step 3 is made when the block end closes. -/
def State.sceneWork (due : Option (ProgLink × FrameIndex × Nat)) (s : State) : State :=
  let s := { s with scene := s.scene.stepRamps }
  match due with
  | none => s
  | some (x, n, tracks) => s.applyDue x n tracks

/-! ### Effective gains (R93, R96 to R99) -/

/-- A product of two gains brought back to gain units with halves rounded upward (R98). -/
def gainProduct (a b : Nat) : Nat := (a * b + 16384) / 32768

/-- The terms of a programme slot at a programme level (R98). -/
def Slot.terms (level : Nat) (x : Slot) : List MixTerm :=
  match x.state with
  | .free => []
  | _ => x.list.map fun c =>
    ⟨.programme x.track, c.bus, gainProduct (gainProduct x.ramp.current c.weight) level⟩

/-- The terms of a room slot, on which the programme level does not act (R99). -/
def RoomSlot.terms (x : RoomSlot) : List MixTerm :=
  if x.active then x.list.map fun c => ⟨.aux x.track, c.bus, gainProduct x.ramp.current c.weight⟩ else []

/-- The effective gains of the set of slot contents for the next block (R93, R96). -/
def State.slotTerms (s : State) : List MixTerm :=
  s.scene.slots.flatMap (Slot.terms s.room.programme.current) ++ s.scene.roomSlots.flatMap RoomSlot.terms

/-! ### Room slot commands as they are taken (R90, R91) -/

/-- Changes the scene table. -/
def State.onScene (s : State) (f : Scene → Scene) : State := { s with scene := f s.scene }

/-- Changes one room slot. -/
def Scene.onRoomSlot (i : Nat) (f : RoomSlot → RoomSlot) (sc : Scene) : Scene :=
  { sc with roomSlots := sc.roomSlots.modify i f }

/-- The room slot of a number. -/
def Scene.roomSlot (sc : Scene) (i : Nat) : RoomSlot := sc.roomSlots.getD i RoomSlot.reset

/-- A contribution that a command writes, its weight clamped (R90). -/
def clampWeight (c : Contribution) : Contribution := { c with weight := clampLevel c.weight }

/-- What ROOM_SLOT_SET makes of a room slot (R90). -/
def RoomSlot.assign (track gain ramp : Nat) (list : List Contribution) (x : RoomSlot) : RoomSlot :=
  let start : Ramp := if x.active then x.ramp else { x.ramp with current := 0, remaining := 0 }
  ⟨true, track, start.change gain ramp, sortByBus (list.map clampWeight)⟩

/-- Whether ROOM_SLOT_SET's values are acceptable (R90). -/
def roomSlotSetOk (slot track gain ramp : Nat) (list : List Contribution) : Bool :=
  decide (slot ≤ 7) && decide (track ≤ 7) && decide (gain ≤ 65535) && decide (ramp ≤ 255) &&
    decide (1 ≤ list.length) && decide (list.length ≤ 8) && list.all (fun c => decide (c.bus ≤ 63)) &&
    !repeatsBus list

/-- ROOM_SLOT_SET taken (R90). -/
def takeRoomSlotSet (p : PortId) (slot track gain ramp : Nat) (list : List Contribution) (s : State) : State :=
  if roomSlotSetOk slot track gain ramp list then
    (s.onScene (Scene.onRoomSlot slot (RoomSlot.assign track gain ramp list))).answer p 0x33 .ok []
  else s.answer p 0x33 .badArgument []

/-- ROOM_SLOT_GAIN taken (R91). -/
def takeRoomSlotGain (p : PortId) (slot gain ramp : Nat) (s : State) : State :=
  if 7 < slot ∨ 65535 < gain ∨ 255 < ramp then s.answer p 0x34 .badArgument []
  else if (s.scene.roomSlot slot).active then
    (s.onScene (Scene.onRoomSlot slot fun x => { x with ramp := x.ramp.change gain ramp })).answer p 0x34 .ok []
  else s.answer p 0x34 .notFound []

/-- What ROOM_SLOT_CLEAR makes of an ACTIVE room slot (R91). The ramp counts as changed at this block end, which a
ramp at rest does not show. -/
def RoomSlot.cleared (x : RoomSlot) : RoomSlot := ⟨false, x.track, x.ramp.change 0 0, []⟩

/-- ROOM_SLOT_CLEAR taken (R91). -/
def takeRoomSlotClear (p : PortId) (slot : Nat) (s : State) : State :=
  if 7 < slot then s.answer p 0x35 .badArgument []
  else if (s.scene.roomSlot slot).active then
    (s.onScene (Scene.onRoomSlot slot RoomSlot.cleared)).answer p 0x35 .ok []
  else s.answer p 0x35 .ok []

end Sys2Proof.Machine
end

