-- ==== Sys2Proof/Machine/Room.lean ====
section
/-! DEFINITION. The room state and the overlay stack (chapter 8): level steps, pushes, pops and their commands. -/

namespace Sys2Proof.Machine

/-- Changes the room state. -/
def State.onRoom (s : State) (f : Room → Room) : State := { s with room := f s.room }

/-- The room state's step of its two level ramps at a block end (R128). -/
def State.stepLevels (s : State) : State :=
  s.onRoom fun r => { r with programme := r.programme.step, master := r.master.step }

/-- A change of the programme level (R129). -/
def State.changeProgramme (level ramp : Nat) (s : State) : State :=
  s.onRoom fun r => { r with programme := r.programme.change (clampLevel level) ramp }

/-- A change of the master level (R129). -/
def State.changeMaster (level ramp : Nat) (s : State) : State :=
  s.onRoom fun r => { r with master := r.master.change (clampLevel level) ramp }

/-- Sets a mute group's state (R130). -/
def State.setGroup (group : Nat) (on : Bool) (s : State) : State :=
  s.onRoom fun r => { r with groups := r.groups.set group on }

/-- A level change that is made when a level is present (R132). -/
def changePresent (change : Nat → Nat → State → State) (level : Option Nat) (ramp : Nat) (s : State) : State :=
  match level with
  | none => s
  | some v => change v ramp s

/-- The room slot gain targets (R127): the targets of the room slots' ramps (R75). -/
def State.slotTargets (s : State) : List Nat := s.scene.roomSlots.map fun x => x.ramp.target

/-- The entry that a push saves: every target of the room state as it stands (R131). -/
def State.overlayFor (owner : PortId) (s : State) : Overlay :=
  ⟨owner, s.room.programme.target, s.room.master.target, s.slotTargets, s.room.groups⟩

/-- A push by a port; `none` when the stack holds 8 entries (R132). -/
def State.push (owner : PortId) (programme master : Option Nat) (ramp : Nat) (s : State) : Option State :=
  if 8 ≤ s.room.stack.length then none
  else
    let entry := s.overlayFor owner
    let s := s.onRoom fun r => { r with stack := r.stack ++ [entry] }
    let s := changePresent State.changeProgramme programme ramp s
    some (changePresent State.changeMaster master ramp s)

/-- A ramp restored to a saved target: changed only when its present target differs (R133). -/
def Ramp.restore (t r : Nat) (x : Ramp) : Ramp := if x.target = t then x else x.change t r

/-- Every target of the room state restored from an entry (R133). -/
def State.restore (e : Overlay) (ramp : Nat) (s : State) : State :=
  let s := s.onRoom fun r =>
    { r with
      programme := r.programme.restore e.programme ramp, master := r.master.restore e.master ramp
      groups := e.groups }
  s.onScene fun sc =>
    { sc with
      roomSlots := sc.roomSlots.mapIdx fun i x =>
        { x with ramp := x.ramp.restore (e.slotTargets.getD i x.ramp.target) ramp } }

/-- Whether a port may pop an entry of an owner (R133). -/
def mayPop (requester owner : PortId) : Bool := decide (requester = owner) || decide (requester = .C)

/-- A pop by a port: its status, and the state it leaves (R133, R134). -/
def State.pop (requester : PortId) (ramp : Nat) (s : State) : Status × State :=
  match s.room.stack.getLast? with
  | none => (.empty, s)
  | some e =>
    if mayPop requester e.owner then
      let s := (s.onRoom fun r => { r with stack := r.stack.dropLast }).restore e ramp
      (.ok, if requester = e.owner then s else s.notify e.owner .overlayTaken)
    else (.notOwner, s)

/-- The depth of the stack as one byte (R164). -/
def State.depthByte (s : State) : Byte := BitVec.ofNat 8 s.room.stack.length

/-! ### The commands as they are taken -/

/-- SET_PROGRAMME_LEVEL taken (R129). -/
def takeSetProgrammeLevel (p : PortId) (level ramp : Nat) (s : State) : State :=
  (s.changeProgramme level ramp).answer p 0x30 .ok []

/-- SET_MASTER_LEVEL taken (R129). -/
def takeSetMasterLevel (p : PortId) (level ramp : Nat) (s : State) : State :=
  (s.changeMaster level ramp).answer p 0x31 .ok []

/-- MUTE_GROUP taken (R130). -/
def takeMuteGroup (p : PortId) (group : Nat) (on : Bool) (s : State) : State :=
  if 3 < group then s.answer p 0x32 .badArgument [] else (s.setGroup group on).answer p 0x32 .ok []

/-- ROOM_PUSH taken (R132): OK with the new depth, or FULL. -/
def takeRoomPush (p : PortId) (programme master : Option Nat) (ramp : Nat) (s : State) : State :=
  match s.push p programme master ramp with
  | none => s.answer p 0x18 .full []
  | some t => t.answer p 0x18 .ok [t.depthByte]

/-- ROOM_POP taken (R133, R134): OK with the new depth, EMPTY or NOT_OWNER. -/
def takeRoomPop (p : PortId) (ramp : Nat) (s : State) : State :=
  match s.pop p ramp with
  | (.ok, t) => t.answer p 0x19 .ok [t.depthByte]
  | (status, t) => t.answer p 0x19 status []

end Sys2Proof.Machine
end

