-- ==== Sys2Proof/Machine/Cues.lean ====
section
/-! DEFINITION. Show position and the cue list (chapter 7): coverage, segments, the firing of cues, and the cue
commands. -/

namespace Sys2Proof.Machine

/-! ### Coverage (R111, R115, R117) -/

/-- How far a linear position lies ahead of another, modulo the reel's length. -/
def linAhead (q h : Nat) : Nat := (q + Config.linearModulus - h) % Config.linearModulus

/-- Whether a position lies at or beyond another (R111). -/
def ShowPos.atOrBeyond (q h : ShowPos) : Bool :=
  decide (q.reel = h.reel) && decide (linAhead q.lin h.lin < Config.linearHalf)

/-- Whether any of the `n` positions from linear position `h` on has the enabled frame and offset (R117, R118). -/
def linMeets (frame offset : Option Nat) (h n : Nat) : Bool :=
  match frame, offset with
  | none, none => decide (0 < n)
  | none, some o => decide ((o + Config.perPicture - h % Config.perPicture) % Config.perPicture < n)
  | some f, some o => decide (linAhead (f * Config.perPicture + o) h < n)
  | some f, none =>
    decide (0 < n) &&
      (decide (linAhead (f * Config.perPicture) h < n) || decide (linAhead h (f * Config.perPicture) < Config.perPicture))

/-- Whether a coverage of `n` positions from `h` on meets a cue's match set (R117, R118). -/
def Cue.meets (c : Cue) (h : ShowPos) (n : Nat) : Bool :=
  c.reel.all (fun r => decide (r = h.reel)) && linMeets c.frame c.offset h.lin n

/-! ### Firing (R118 to R120, R123) -/

/-- Carries out a cue's action as its submitting port; the refusal's status, if the overlay stack refuses it
(R119, R120). -/
def State.cueAction (port : PortId) (a : CueAction) (s : State) : State × Option Status :=
  match a with
  | .programmeLevel level ramp => (s.changeProgramme level ramp, none)
  | .muteGroup group on => (s.setGroup group on, none)
  | .notify => (s, none)
  | .roomPush programme master ramp =>
    match s.push port programme master ramp with
    | some t => (t, none)
    | none => (s, some .full)
  | .roomPop ramp =>
    match s.pop port ramp with
    | (.ok, t) => (t, none)
    | (status, t) => (t, some status)

/-- An entry joins a port's fired log, which keeps the newest 16 (R123). -/
def Port.logFiring (e : LogEntry) (x : Port) : Port := { x with log := keepLast 16 (x.log ++ [e]) }

/-- One more refused cue action (R120). -/
def Port.countRefused (x : Port) : Port := { x with cuesRefused := bump x.cuesRefused }

/-- A cue fires: its action, its log entry and its notices (R118, R120). -/
def State.fire (c : Cue) (s : State) : State :=
  let (s, outcome) := s.cueAction c.port c.action
  let s := (s.onPort c.port (Port.logFiring ⟨c.id, c.mode, actionKind c.action, s.blockCount, outcome⟩)).notify
    c.port .cueFired
  match outcome with
  | none => s
  | some _ => (s.onPort c.port Port.countRefused).notify c.port .cueActionRefused

/-- Evaluates the cues in list order against a coverage: what stays in the list, and the state the firings leave
(R118). -/
def evaluateCues (h : ShowPos) (n : Nat) : List Cue → State → List Cue × State
  | [], s => ([], s)
  | c :: rest, s =>
    if c.added then
      let (cues, s) := evaluateCues h n rest s
      (c :: cues, s)
    else if c.meets h n && !c.matched then
      let (cues, s) := evaluateCues h n rest (s.fire c)
      match c.mode with
      | .once => (cues, s)
      | .repeats => ({ c with matched := true, fires := bump16 c.fires } :: cues, s)
    else
      let (cues, s) := evaluateCues h n rest s
      ({ c with matched := c.meets h n } :: cues, s)

/-- The cue list's evaluation against a non-empty coverage (R118). -/
def State.evaluateSegment (h : ShowPos) (n : Nat) (s : State) : State :=
  let (cues, t) := evaluateCues h n s.cueing.cues s
  t.onShow fun v => { v with cues := cues }

/-! ### Segments (R114, R115) -/

/-- The show positions of a segment's first and last PLAY frames so far, if it has any. -/
abbrev Segment := Option (ShowPos × ShowPos)

/-- A segment's coverage is formed and the cues are evaluated (R115). -/
def State.closeSegment (g : Segment) (s : State) : State :=
  match g with
  | none => s
  | some (first, q) =>
    let h := s.cueing.hwm.getD first
    if q.atOrBeyond h then
      (s.onShow fun v => { v with hwm := some (q.add 1) }).evaluateSegment h (linAhead q.lin h.lin + 1)
    else s.onShow fun v => { v with hwm := some h }

/-- The LOCATE of a marked stamp (R114): flags cleared, high-water mark at the stamp's position, its mark cleared. -/
def State.locateAt (l : LinkId) (σ : Stamp) (s : State) : State :=
  (s.onShow fun v => { v with cues := clearFlags v.cues, hwm := some σ.pos }).onLink l fun x =>
    { x with stamps := x.stamps.map fun τ => if τ.first = σ.first then { τ with mark := false } else τ }

/-- The first and last of a stamp's frames, counted from its frame 0, among the `n` frames passed from `start` on
(R114). -/
def passedIn (σ : Stamp) (start : FrameIndex) (n : Nat) : Option (Nat × Nat) :=
  let ahead := (σ.first - start).toNat
  let back := (start - σ.first).toNat
  if ahead < n then some (0, min 31 (n - 1 - ahead))
  else if back < 32 ∧ 0 < n then some (back, min 31 (back + n - 1))
  else none

/-- The PLAY frames that a stamp adds to a segment (R115). -/
def Segment.extend (σ : Stamp) (range : Option (Nat × Nat)) (g : Segment) : Segment :=
  match range, σ.transport with
  | some (a, b), .play => some ((g.map Prod.fst).getD (σ.pos.add a), σ.pos.add b)
  | _, _ => g

/-- One stamp's passed frames: a marked stamp whose frame 0 is passed begins a new segment with a LOCATE (R114). -/
def passStamp (l : LinkId) (start : FrameIndex) (n : Nat) (acc : State × Segment) (σ : Stamp) : State × Segment :=
  let range := passedIn σ start n
  if σ.mark = true ∧ (σ.first - start).toNat < n then
    ((acc.1.closeSegment acc.2).locateAt l σ, Segment.extend σ range none)
  else (acc.1, acc.2.extend σ range)

/-- The evaluation of a block in which the reader of a link passed `n` frames from `start` on (R114). -/
def State.passFrames (l : LinkId) (start : FrameIndex) (n : Nat) (s : State) : State :=
  let (s, last) := (s.link l).stamps.foldl (passStamp l start n) (s, none)
  s.closeSegment last

/-! ### The block-end work (R113) -/

/-- The closing programme's link and read index as the ending block left them (R113). -/
def State.endIndex (s : State) : Option (ProgLink × FrameIndex) :=
  match s.closing with
  | none => none
  | some x => (s.link (progLink x)).readPos.map fun p => (x, p.index)

/-- The show position block's work with the end index: the ending block is evaluated if its programme still has a read
position and the index lies ahead of the start, and a LOCATE held from the selector is then applied (R113, R116,
R126). -/
def State.showWork (endAt : Option (ProgLink × FrameIndex)) (s : State) : State :=
  let s :=
    match s.cueing.start, endAt with
    | some (x, start), some (y, stop) =>
      let n := (stop - start).toNat
      if x = y ∧ (s.link (progLink x)).readPos.isSome = true ∧ 1 ≤ n ∧ n < 2147483648 then
        s.passFrames (progLink x) start n
      else s
    | _, _ => s
  let s := s.onShow fun v => { v with workDone := true }
  if s.cueing.locateHeld then s.applyLocate else s

/-! ### The cue commands as they are taken (R121 to R124) -/

/-- A level of a cue action as the list stores it (R121). -/
def storedAction : CueAction → CueAction
  | .programmeLevel level ramp => .programmeLevel (clampLevel level) ramp
  | .roomPush programme master ramp => .roomPush (programme.map clampLevel) (master.map clampLevel) ramp
  | a => a

/-- Whether a cue action's arguments are acceptable (R119 to R121). -/
def actionOk : CueAction → Bool
  | .programmeLevel level ramp => decide (level ≤ 65535) && decide (ramp ≤ 255)
  | .roomPush programme master ramp =>
    programme.all (fun v => decide (v ≤ 65535)) && master.all (fun v => decide (v ≤ 65535)) && decide (ramp ≤ 255)
  | .roomPop ramp => decide (ramp ≤ 255)
  | .muteGroup group _ => decide (group ≤ 3)
  | .notify => true

/-- Whether CUE_ADD's values are acceptable (R121, the row of BAD_ARGUMENT). -/
def cueOk (c : CueSpec) : Bool :=
  decide (1 ≤ c.id) && decide (c.id ≤ 255) && (c.reel.isSome || c.frame.isSome || c.offset.isSome) &&
    c.reel.all (fun r => decide (1 ≤ r) && decide (r ≤ 15)) && c.frame.all (fun f => decide (f ≤ 65535)) &&
    c.offset.all (fun o => decide (o ≤ 1999)) && actionOk c.action

/-- Whether a cue is the one a port knows by an id. -/
def Cue.isNamed (p : PortId) (id : Nat) (c : Cue) : Bool := decide (c.port = p) && decide (c.id = id)

/-- The cue that CUE_ADD makes (R117, R121). -/
def newCue (p : PortId) (c : CueSpec) : Cue :=
  ⟨p, c.id, c.reel, c.frame, c.offset, c.mode, storedAction c.action, false, 0, true⟩

/-- CUE_ADD taken (R121). -/
def takeCueAdd (p : PortId) (c : CueSpec) (s : State) : State :=
  if cueOk c then
    if s.cueing.cues.any (Cue.isNamed p c.id) then s.answer p 0x10 .duplicate []
    else if 48 ≤ s.cueing.cues.length then s.answer p 0x10 .full []
    else (s.onShow fun v => { v with cues := v.cues ++ [newCue p c] }).answer p 0x10 .ok []
  else s.answer p 0x10 .badArgument []

/-- CUE_CANCEL taken (R122). -/
def takeCueCancel (p : PortId) (id : Nat) (s : State) : State :=
  if s.cueing.cues.any (Cue.isNamed p id) then
    (s.onShow fun v => { v with cues := v.cues.filter fun c => !c.isNamed p id }).answer p 0x11 .ok []
  else s.answer p 0x11 .notFound []

end Sys2Proof.Machine
end

