-- ==== Sys2Proof/Machine/Interp.lean ====
section
/-! DEFINITION. The interpolator (chapter 3): what each link gives at a house sample, and how its positions advance. -/

namespace Sys2Proof.Machine

/-- The value of one track between four frames at a phase, before saturation (R46 steps 1 to 7). -/
def interpolateRaw (f : Nat) (a b c d : Int) : Int :=
  let c1 := c - a
  let c2 := 2 * a - 5 * b + 4 * c - d
  let c3 := 3 * (b - c) + d - a
  let t3 := c3 * (f : Int) / 65536
  let t2 := (c2 + t3) * (f : Int) / 65536
  let t1 := (c1 + t2) * (f : Int) / 65536
  (2 * b + t1 + 1) / 2

/-- The value of one track (R46). -/
def interpolate (f : Nat) (a b c d : Int) : Int := saturate (interpolateRaw f a b c d)

/-- The values of a frame's tracks: 0 from the track count on (R47). -/
def interpTracks (f : Nat) : Nat → List Int → List Int → List Int → List Int → List Int
  | n + 1, a :: as, b :: bs, c :: cs, d :: ds => interpolate f a b c d :: interpTracks f n as bs cs ds
  | 0, _ :: as, _ :: bs, _ :: cs, _ :: ds => 0 :: interpTracks f 0 as bs cs ds
  | _, _, _, _, _ => []

/-- A fade weight applied to a value (R49). -/
def fadeBy (w : Nat) (v : Int) : Int := (v * (w : Int) + 16) / 32

/-- The track count that applies at a frame index: that of its stamp (R47; log 26 for an index without one). -/
def Link.tracksAt (x : Link) (i : FrameIndex) : Nat :=
  match x.stampOf i with
  | some σ => σ.tracks
  | none => 0

/-- A position's value on every track (R45, R46, R47). A frame n − 1 that is not held counts as frame n. -/
def Link.valuesAt (x : Link) (p : ReadPos) : List Int :=
  let n := p.index
  let a := if x.isHeld (n - 1) then x.frame (n - 1) else x.frame n
  interpTracks (p.frac / 256) (x.tracksAt n) a (x.frame n) (x.frame (n + 1)) (x.frame (n + 2))

/-- A position after one house sample at an applied step offset (R48). -/
def ReadPos.advance (taken : Int) (p : ReadPos) : ReadPos :=
  let total := (p.frac : Int) + 16777216 + taken
  ⟨p.index + BitVec.ofNat 32 (total / 16777216).toNat, (total % 16777216).toNat⟩

/-- The weight of the next sample of a fade-out (R50). -/
def Departing.weight (d : Departing) : Nat := d.level * (d.total - 1 - d.given) / d.total

/-- Whether a departing position still has all the frames it needs (R50). -/
def Link.canDepart (x : Link) (p : ReadPos) : Bool :=
  x.isHeld p.index && x.isHeld (p.index + 1) && x.isHeld (p.index + 2)

/-- A house sample of a link whose read position is fresh: the departing position's fade-out, if one is left
(R44, R50). -/
def Link.sampleFresh (silence : List Int) (x : Link) : List Int × Link :=
  match x.departing with
  | none => (silence, x)
  | some d =>
    if d.given < d.total then
      if x.canDepart d.pos then
        ((x.valuesAt d.pos).map (fadeBy d.weight),
          { x with departing := some { d with pos := d.pos.advance x.taken, given := d.given + 1 } })
      else (silence, { x with departing := none })
    else (silence, x)

/-- A house sample of a link whose read position is read: starvation, or its value with a running fade-in (R40, R44,
R51), and the advance (R48). `j` is the house sample's place in the block. -/
def Link.sampleRead (silence : List Int) (j : Nat) (x : Link) (p : ReadPos) : List Int × Link :=
  if x.notYet (p.index + 2) then
    (silence, { x with counters := { x.counters with starved := bump x.counters.starved } })
  else
    let v := x.valuesAt p
    (if x.fadeIn then v.map (fadeBy (j + 1)) else v, { x with readPos := some (p.advance x.taken) })

/-- What one link gives at house sample `j` of a block, and the link afterwards (R44). -/
def Link.sample (width j : Nat) (x : Link) : List Int × Link :=
  let silence := List.replicate width 0
  if x.running then
    match x.readPos, x.fresh with
    | none, _ => (silence, x)
    | some p, .no => x.sampleRead silence j p
    | some _, _ => x.sampleFresh silence
  else (silence, x)

/-- The interpolator's work at a block end: the step is taken (R35), departing positions are dropped, and a fresh
position begins to be read with a fade-in (R26, R38, R51). -/
def Link.blockEnd (x : Link) : Link :=
  { x with taken := x.applied, departing := none, fadeIn := x.fresh ≠ .no, fresh := .no }

end Sys2Proof.Machine
end

