-- ==== Sys2Proof/Machine/Output.lean ====
section
/-! DEFINITION. The mix engine's arithmetic and meters (chapter 6) and the output stage (chapter 9): bus sums, final
values, mutes, delays, and the output commands. -/

namespace Sys2Proof.Machine

/-! ### Bus sums (R100, R101) -/

/-- The sample of a term's source among the programme values and link C's output (R97). -/
def Source.sample (programme aux : List Int) : Source → Int
  | .programme t => programme.getD t 0
  | .aux t => aux.getD t 0

/-- What a term adds to a bus (R98, R99, R100). -/
def MixTerm.part (programme aux : List Int) (bus : Nat) (t : MixTerm) : Int :=
  if t.bus = bus then t.source.sample programme aux * (t.gain : Int) else 0

/-- The accumulator of a bus (R100). -/
def accumulate (terms : List MixTerm) (programme aux : List Int) (bus : Nat) : Int :=
  (terms.map (MixTerm.part programme aux bus)).sum

/-- The accumulator rounded to the sample scale (R101). -/
def busRounded (acc : Int) : Int := (acc + 16384) / 32768

/-- The bus value after the headroom clamp (R101). -/
def busValue (acc : Int) : Int := clampInt (-134217728) 134217728 (busRounded acc)

/-! ### The final value (R141) -/

/-- The bus value scaled by trim and effective master level, rounded. -/
def finalRounded (v : Int) (trim meff : Nat) : Int := (v * (trim : Int) * (meff : Int) + 536870912) / 1073741824

/-- What one bus gives at a house sample: the value sent on the output link, the final value for the meters, whether
the final saturation acted, and the bus afterwards (R101, R106, R141, R148). -/
def Bus.sample (acc : Int) (b : Bus) : Int × Int × Bool × Bus :=
  let v := busValue acc
  let raw := finalRounded v b.inTrim b.inMeff
  let y := saturate raw
  let clipped := decide (raw ≠ y)
  let line := (y :: b.line).take 2048
  (line.getD b.inDelay 0, y, clipped,
    { b with
      line := line
      overload := if busRounded acc = v then b.overload else bump b.overload
      clips := if clipped then bump16 b.clips else b.clips })

/-! ### The meter scan (R105) -/

/-- A peak set raised by the magnitudes of the final values. -/
def raisePeaks (finals : List Int) (peaks : List Nat) : List Nat :=
  List.zipWith (fun y peak => max peak y.natAbs) finals peaks

/-- One lane of an output frame: lane l carries buses 16l to 16l + 15 in bus order (R149). -/
def laneOf (lane : Nat) (frame : List Int) : List Int := (frame.drop (16 * lane)).take 16

/-! ### Delays (R145 to R147) -/

/-- The speed of sound in millimetres per second (R145). -/
def soundSpeed (temp : Int) : Nat := (331300 + 606 * temp).toNat

/-- The flight time of a distance in house samples (R145). -/
def flightTime (c d : Nat) : Nat := (d * 48000 + c / 2) / c

/-- The greatest flight time of a list of buses (R145). -/
def greatestFlight (c : Nat) (buses : List Bus) : Nat := (buses.map fun b => flightTime c b.distance).foldl max 0

/-- A bus's computed delay and limit flag, given the greatest flight time (R145). -/
def Bus.computeDelay (c far : Nat) (b : Bus) : Bus :=
  let want := far - flightTime c b.distance
  { b with computed := min 2047 want, limit := decide (2047 < want) }

/-- Every bus's computed delay (R145). -/
def computeDelays (temp : Int) (buses : List Bus) : List Bus :=
  let c := soundSpeed temp
  buses.map (Bus.computeDelay c (greatestFlight c buses))

/-- The slew of one bus at a block end (R147). -/
def Bus.slew (b : Bus) : Bus :=
  if 0 < b.wait then { b with wait := b.wait - 1 }
  else if b.applied < b.computed then { b with applied := b.applied + 1, wait := 7 }
  else if b.computed < b.applied then { b with applied := b.applied - 1, wait := 7 }
  else b

/-- The applied delay set equal to the computed delay in one step, with the slew wait at 0 (R147). -/
def Bus.seatDelay (b : Bus) : Bus := { b with applied := b.computed, wait := 0 }

/-! ### Mutes (R144) and the per-block values (R140) -/

/-- Whether a bus is held by a mute group that is on (R144). -/
def isHeldBus (groups : List Bool) (members : List (BitVec 64)) (bus : Nat) : Bool :=
  (List.zip groups members).any fun (on, set) => on && set.getLsbD bus

/-- The mute factor's ramp retargeted with ramp length 4 when the wanted factor differs from its target (R144). -/
def Bus.retarget (held : Bool) (b : Bus) : Bus :=
  let wanted := if held then 0 else Config.unity
  if wanted = b.mute.target then b else { b with mute := b.mute.change wanted 4 }

/-- The values fixed for the next block (R140). -/
def Bus.fix (master : Nat) (b : Bus) : Bus :=
  { b with inTrim := b.trim, inMeff := gainProduct master b.mute.current, inDelay := b.applied }

/-- What fixing the per-block values does to one bus: mute factor, slew, values (R140, R144, R147). -/
def Bus.fixBlock (held : Bool) (master : Nat) (b : Bus) : Bus := ((b.retarget held).slew).fix master

/-- The output stage's step of its mute factor ramps at a block end (R144, first step). -/
def State.stepMutes (s : State) : State :=
  { s with buses := s.buses.map fun b => { b with mute := b.mute.step } }

/-- The output stage fixes its per-block values, after any computation of delays (R140, R144, R146, R147). -/
def State.fixOutput (s : State) : State :=
  let buses := if s.delayDirty then computeDelays s.airTemp s.buses else s.buses
  { s with
    buses := buses.mapIdx fun i b => b.fixBlock (isHeldBus s.room.groups s.members i) s.room.master.current
    delayDirty := false }

/-! ### The output commands as they are taken (R142, R143, R146) -/

/-- Changes one bus. -/
def State.onBus (s : State) (i : Nat) (f : Bus → Bus) : State := { s with buses := s.buses.modify i f }

/-- SET_BUS_TRIM taken (R142). -/
def takeSetBusTrim (p : PortId) (bus trim : Nat) (s : State) : State :=
  if 63 < bus ∨ 65535 < trim then s.answer p 0x38 .badArgument []
  else (s.onBus bus fun b => { b with trim := trim }).answer p 0x38 .ok []

/-- SET_BUS_DISTANCE taken (R146). -/
def takeSetBusDistance (p : PortId) (bus distance : Nat) (s : State) : State :=
  if 63 < bus then s.answer p 0x39 .badArgument []
  else
    ({ s.onBus bus fun b => { b with distance := min distance 60000 } with delayDirty := true }).answer p 0x39 .ok []

/-- SET_AIR_TEMP taken (R146). -/
def takeSetAirTemp (p : PortId) (temp : Int) (s : State) : State :=
  ({ s with airTemp := clampInt (-10) 45 temp, delayDirty := true }).answer p 0x3A .ok []

/-- The set of buses that a list of bus numbers names; a bus named more than once is taken once (R143). -/
def busSet (buses : List Nat) : BitVec 64 := buses.foldl (fun set b => set ||| (1#64 <<< b)) 0

/-- SET_MUTE_GROUP taken (R143). -/
def takeSetMuteGroup (p : PortId) (group : Nat) (buses : List Nat) (s : State) : State :=
  if 3 < group ∨ 64 < buses.length ∨ buses.any (fun b => decide (63 < b)) = true then s.answer p 0x3B .badArgument []
  else ({ s with members := s.members.set group (busSet buses) }).answer p 0x3B .ok []

end Sys2Proof.Machine
end

