-- ==== Sys2Proof/Machine/Answers.lean ====
section
/-! DEFINITION. What the read commands answer (R161, R162, R164): the payload bytes of status, counters, meters,
position, slots, cues, logs, notices and the reset cause, and those commands as they are taken. -/

namespace Sys2Proof.Machine

/-! ### Numbers as bytes, most significant first (R164) -/

/-- A value in three bytes. -/
def bytes24 (n : Nat) : List Byte := [byteOf (n / 65536), byteOf (n / 256), byteOf n]

/-- A value in four bytes. -/
def bytes32 (n : Nat) : List Byte := [byteOf (n / 16777216), byteOf (n / 65536), byteOf (n / 256), byteOf n]

/-- A signed value in four bytes, two's complement. -/
def signed32 (v : Int) : List Byte := bytes32 (BitVec.ofInt 32 v).toNat

/-- A set of buses in eight bytes. -/
def bytes64 (v : BitVec 64) : List Byte := bytes32 (v.toNat / 4294967296) ++ bytes32 v.toNat

/-- A ramp's current, target and remaining values. -/
def rampBytes (r : Ramp) : List Byte := bytes16 r.current ++ bytes16 r.target ++ [byteOf r.remaining]

/-- Four mute group states, bit g for group g. -/
def groupByte (groups : List Bool) : Byte :=
  byteOf ((groups.mapIdx fun g on => if on then 2 ^ g else 0).sum)

/-! ### GET_STATUS (R161) -/

/-- Whether a fade of R38 is running on a link (R43, section 3.6). -/
def Link.fading (x : Link) : Bool := x.departing.isSome || x.fadeIn

/-- Section 0, one link (R19, R43). -/
def Link.statusBytes (x : Link) : List Byte :=
  [x.state.byte, byteOf x.run, x.seq, byteOf x.tracks, transportByte x.transport, x.health.byte, x.pull.byte,
    byteOf x.fill] ++ signed32 x.measuredOffset ++ signed32 x.taken ++ [boolByte x.measured, boolByte x.fading]

/-- The outgoing link of a crossfade (R71). -/
def outgoingOf : SelState → Option ProgLink
  | .crossfade out _ _ => out
  | _ => none

/-- The step of a crossfade, 0 outside one (R164). -/
def stepOf : SelState → Nat
  | .crossfade _ _ k => k
  | _ => 0

/-- The selector's status (R71). -/
def Selector.statusBytes (v : Selector) : List Byte :=
  [v.cur.byte, progByte (programmeOf v.cur), progByte (outgoingOf v.cur), byteOf (stepOf v.cur), progLinkByte v.primary,
    boolByte v.autoRevert, boolByte v.manualHold, v.align.byte] ++ bytes16 v.revert

/-- How many programme slots are in a state (R94). -/
def Scene.countState (sc : Scene) (st : SlotState) : Nat := (sc.slots.filter fun x => decide (x.state = st)).length

/-- A room slot's state as a slot state (R164). -/
def RoomSlot.state (x : RoomSlot) : SlotState := if x.active then .active else .free

/-- Section 1 (R71, R94). -/
def State.section1 (s : State) : List Byte :=
  s.sel.statusBytes ++
    [byteOf (s.scene.countState .free), byteOf (s.scene.countState .active), byteOf (s.scene.countState .releasing)] ++
    bytes16 s.scene.free ++ s.scene.roomSlots.map (fun x => x.state.byte) ++
    [byteOf s.linkA.queue.length, byteOf s.linkB.queue.length]

/-- One overlay entry (R137). -/
def Overlay.bytes (e : Overlay) : List Byte :=
  [portByte e.owner] ++ bytes16 e.programme ++ bytes16 e.master ++ e.slotTargets.flatMap bytes16 ++ [groupByte e.groups]

/-- Section 2 (R137). -/
def State.section2 (s : State) : List Byte :=
  rampBytes s.room.programme ++ rampBytes s.room.master ++ [groupByte s.room.groups] ++
    s.slotTargets.flatMap bytes16 ++ [s.depthByte] ++ s.room.stack.flatMap Overlay.bytes

/-- One bus of sections 3 to 6 (R150). -/
def Bus.statusBytes (b : Bus) : List Byte :=
  bytes16 b.trim ++ bytes16 b.distance ++ rampBytes b.mute ++ bytes16 b.computed ++ bytes16 b.applied ++
    [boolByte b.limit]

/-- The 16 buses of a group. -/
def State.busGroup (s : State) (g : Nat) : List Bus := (s.buses.drop (16 * g)).take 16

/-- Section 7 (R150, R168, R170, R173). -/
def State.section7 (s : State) : List Byte :=
  [BitVec.ofInt 8 s.airTemp] ++ s.members.flatMap bytes64 ++
    [s.ref.state.byte, boolByte s.store.valid, boolByte s.store.writing.isSome, s.store.result.byte, s.startup.byte]

/-- The payload of a status section (R161). -/
def State.statusPayload (sect : Nat) (s : State) : List Byte :=
  match sect with
  | 0 => s.linkA.statusBytes ++ s.linkB.statusBytes ++ s.linkC.statusBytes
  | 1 => s.section1
  | 2 => s.section2
  | 3 => (s.busGroup 0).flatMap Bus.statusBytes
  | 4 => (s.busGroup 1).flatMap Bus.statusBytes
  | 5 => (s.busGroup 2).flatMap Bus.statusBytes
  | 6 => (s.busGroup 3).flatMap Bus.statusBytes
  | _ => s.section7

/-! ### GET_COUNTERS (R162) and GET_METERS (R107) -/

/-- A link's 15 counters in the order of R162. -/
def LinkCounters.toList (k : LinkCounters) : List Nat :=
  [k.valid, k.malformed, k.concealed, k.slips, k.starved, k.dropped] ++ k.rejected ++ [k.ignored, k.rateFaults]

/-- The payload of a counter section (R162). -/
def State.countersPayload (sect : Nat) (s : State) : List Byte :=
  match sect with
  | 0 =>
    (s.linkA.counters.toList ++ s.linkB.counters.toList ++ s.linkC.counters.toList ++
      [s.portA.cuesRefused, s.portB.cuesRefused, s.portC.cuesRefused]).flatMap bytes32
  | 1 => (s.buses.take 32).flatMap fun b => bytes32 b.overload
  | _ => (s.buses.drop 32).flatMap fun b => bytes32 b.overload

/-- The payload of a meter group for a port (R107). -/
def State.metersPayload (p : PortId) (g : Nat) (s : State) : List Byte :=
  (List.zip (((s.port p).peaks.drop (16 * g)).take 16) (s.busGroup g)).flatMap fun (peak, b) =>
    bytes24 peak ++ bytes16 b.clips

/-- A peak set with the 16 peaks of a group set to 0 (R107). -/
def clearPeaks (g : Nat) (peaks : List Nat) : List Nat := peaks.mapIdx fun i v => if i / 16 = g then 0 else v

/-! ### GET_POSITION (R125) -/

/-- A position's reel, frame and offset. -/
def ShowPos.bytes (p : ShowPos) : List Byte :=
  [byteOf p.reel] ++ bytes16 (p.lin / Config.perPicture) ++ bytes16 (p.lin % Config.perPicture)

/-- A position that may be none: its flag, and zero when none. R125 gives the zeros for the show position; for the
high-water mark they are the model's choice (log 34). -/
def posBytes (p : Option ShowPos) : List Byte := boolByte p.isSome :: (p.getD ⟨0, 0⟩).bytes

/-- The stamp of the start index (R125). -/
def State.startStamp (s : State) : Option (FrameIndex × Stamp) :=
  match s.cueing.start with
  | none => none
  | some (x, i) => ((s.link (progLink x)).stampOf i).map fun σ => (i, σ)

/-- The payload of GET_POSITION (R125). -/
def State.positionPayload (s : State) : List Byte :=
  let at_ := s.startStamp
  let pos : ShowPos := match at_ with | some (i, σ) => σ.readerPos i | none => ⟨0, 0⟩
  let transport : Transport := match at_ with | some (_, σ) => σ.transport | none => .hold
  [boolByte s.cueing.start.isSome] ++ pos.bytes ++ [transportByte transport] ++ posBytes s.cueing.hwm ++
    bytes32 s.blockCount.toNat ++
    [s.sel.cur.byte, progByte s.opening, byteOf s.cueing.cues.length]

/-! ### GET_SLOT (R94) -/

/-- A list with its length. -/
def listBytes (list : List Contribution) : List Byte := byteOf list.length :: list.flatMap contributionBytes

/-- The payload of GET_SLOT (R94). -/
def State.slotPayload (kind : SlotKind) (slot : Nat) (s : State) : List Byte :=
  match kind with
  | .programme =>
    let x := s.scene.slot slot
    [x.state.byte, byteOf x.track] ++ rampBytes x.ramp ++ listBytes x.list
  | .room =>
    let x := s.scene.roomSlot slot
    [x.state.byte, byteOf x.track] ++ rampBytes x.ramp ++ listBytes x.list

/-! ### CUE_LIST and CUE_LOG (R123, R124) -/

/-- A cue action's arguments, followed by 0 up to 6 bytes (R164). -/
def actionBytes (a : CueAction) : List Byte := actionArgs a ++ List.replicate (6 - (actionArgs a).length) 0

/-- A cue as CUE_LIST gives it (R124, R164): a field whose enable is off is 0 (R117). -/
def Cue.bytes (c : Cue) : List Byte :=
  [byteOf c.id, enablesByte c.reel c.frame c.offset, byteOf (c.reel.getD 0)] ++ bytes16 (c.frame.getD 0) ++ bytes16 (c.offset.getD 0) ++
    [modeByte c.mode, (actionKind c.action).byte] ++ actionBytes c.action ++ [boolByte c.matched] ++ bytes16 c.fires

/-- A port's own cues in list order (R124). -/
def State.cuesOf (p : PortId) (s : State) : List Cue := s.cueing.cues.filter fun c => decide (c.port = p)

/-- The payload of CUE_LIST (R124). -/
def State.cueListPayload (p : PortId) (rank : Nat) (s : State) : List Byte :=
  byteOf (s.cuesOf p).length :: (((s.cuesOf p).drop rank).take 12).flatMap Cue.bytes

/-- An outcome's byte: DONE is 0x00 (R164). -/
def outcomeByte (o : Option Status) : Byte :=
  match o with
  | none => 0
  | some st => st.byte

/-- A fired log's entry (R164). -/
def LogEntry.bytes (e : LogEntry) : List Byte :=
  [byteOf e.id, modeByte e.mode, e.kind.byte] ++ bytes32 e.block.toNat ++ [outcomeByte e.outcome]

/-- The payload of CUE_LOG (R123). -/
def logPayload (log : List LogEntry) : List Byte := byteOf log.length :: log.flatMap LogEntry.bytes

/-! ### The read commands as they are taken -/

/-- Marks a port's answer as one that follows the changes of the open block end (R161, log 7). -/
def State.setLive (p : PortId) (r : Request) (s : State) : State := s.onPort p fun x => { x with live := some r }

/-- GET_STATUS taken (R161). -/
def takeGetStatus (p : PortId) (sect : Nat) (s : State) : State :=
  if 7 < sect then s.answer p 0x01 .badArgument []
  else (s.answer p 0x01 .ok (s.statusPayload sect)).setLive p (.getStatus sect)

/-- GET_COUNTERS taken (R162). -/
def takeGetCounters (p : PortId) (sect : Nat) (s : State) : State :=
  if 2 < sect then s.answer p 0x02 .badArgument [] else s.answer p 0x02 .ok (s.countersPayload sect)

/-- GET_METERS taken (R107). -/
def takeGetMeters (p : PortId) (group : Nat) (s : State) : State :=
  if 3 < group then s.answer p 0x03 .badArgument []
  else (s.onPort p fun x => { x with peaks := clearPeaks group x.peaks }).answer p 0x03 .ok (s.metersPayload p group)

/-- GET_POSITION taken (R125). -/
def takeGetPosition (p : PortId) (s : State) : State :=
  (s.answer p 0x04 .ok s.positionPayload).setLive p .getPosition

/-- Whether a slot number is one of its kind (R94). -/
def slotNumberOk (kind : SlotKind) (slot : Nat) : Bool :=
  match kind with
  | .programme => decide (slot ≤ 127)
  | .room => decide (slot ≤ 7)

/-- GET_SLOT taken (R94). -/
def takeGetSlot (p : PortId) (kind : SlotKind) (slot : Nat) (s : State) : State :=
  if slotNumberOk kind slot then (s.answer p 0x05 .ok (s.slotPayload kind slot)).setLive p (.getSlot kind slot)
  else s.answer p 0x05 .badArgument []

/-- GET_NOTICES taken (R160). -/
def takeGetNotices (p : PortId) (s : State) : State :=
  (s.onPort p fun x => { x with raised := 0 }).answer p 0x06 .ok (bytes16 (s.port p).raised.toNat)

/-- SET_NOTICE_MASK taken (R160); bits 15..12 are not read (R167). -/
def takeSetNoticeMask (p : PortId) (mask : BitVec 16) (s : State) : State :=
  (s.onPort p fun x => { x with mask := mask.setWidth 12 }).answer p 0x07 .ok []

/-- SET_NOTICE_ENABLE taken (R160). -/
def takeSetNoticeEnable (p : PortId) (on : Bool) (s : State) : State :=
  (s.onPort p fun x => { x with enable := on }).answer p 0x08 .ok []

/-- GET_RESET_CAUSE taken (R175). -/
def takeGetResetCause (p : PortId) (s : State) : State :=
  s.answer p 0x09 .ok [causeByte s.cause.cause, boolByte s.cause.lost]

/-- CUE_LIST taken (R124). -/
def takeCueList (p : PortId) (rank : Nat) (s : State) : State :=
  if 47 < rank then s.answer p 0x12 .badArgument []
  else (s.answer p 0x12 .ok (s.cueListPayload p rank)).setLive p (.cueList rank)

/-- CUE_LOG taken (R123). DESIGN CHOICE (log 37): the log is answered and emptied as it stands when the request is taken, so
a firing of the same block end is in this answer when it comes before the request, and in the next answer when it comes
after. -/
def takeCueLog (p : PortId) (s : State) : State :=
  (s.onPort p fun x => { x with log := [] }).answer p 0x13 .ok (logPayload (s.port p).log)

/-- A link's counters set to 0 (R163). -/
def Link.clearCounters (x : Link) : Link := { x with counters := LinkCounters.zero }

/-- CLEAR_COUNTERS taken (R108, R163). -/
def takeClearCounters (p : PortId) (s : State) : State :=
  ({ s with
    linkA := s.linkA.clearCounters, linkB := s.linkB.clearCounters, linkC := s.linkC.clearCounters,
    buses := s.buses.map fun b => { b with overload := 0, clips := 0 },
    portA := { s.portA with cuesRefused := 0 }, portB := { s.portB with cuesRefused := 0 },
    portC := { s.portC with cuesRefused := 0 } } : State).answer p 0x40 .ok []

/-- The payload that a live answer takes when the block end closes (R161). -/
def State.livePayload (p : PortId) (r : Request) (s : State) : List Byte :=
  match r with
  | .getStatus sect => s.statusPayload sect
  | .getPosition => s.positionPayload
  | .getSlot kind slot => s.slotPayload kind slot
  | .cueList rank => s.cueListPayload p rank
  | _ => []

/-- A port's live answer as the block end leaves it (R161, log 7). -/
def State.renderLive (p : PortId) (s : State) : State :=
  match (s.port p).live with
  | none => s
  | some r => s.onPort p fun x => { x with response := some ⟨.ok, requestCode r, s.livePayload p r⟩, live := none }

end Sys2Proof.Machine
end

