-- ==== Sys2Proof/Machine/Clock.lean ====
section
/-! DEFINITION. The reference block and the tick's frequency (section 11.1), the calibration store (section 11.2), the
resets, the power and the reset cause record (sections 11.3 and 11.5). -/

namespace Sys2Proof.Machine

/-! ### The reference block (R168, R169) -/

/-- Whether a period, in crystal cycles, is in tolerance (R168). -/
def inTolerance (period : Nat) : Bool := decide (502 ≤ period) && decide (period ≤ 522)

/-- Keeps an in-tolerance period among the last 64 (R169). -/
def Reference.keepPeriod (period : Nat) (x : Reference) : Reference :=
  { x with periods := keepLast 64 (x.periods ++ [period]) }

/-- Entry into REF_LOCKED with its pull-in (R168, R169). -/
def Reference.lock (x : Reference) : Reference :=
  { x with state := .locked, qual := 0, bad := 0, everLocked := true, pullIn := true, pullPeriods := 0 }

/-- Departure from REF_LOCKED: the free frequency becomes the average of the last 64 in-tolerance periods (R169). -/
def Reference.lose (x : Reference) : Reference :=
  { x with state := .hold, bad := 0, pullIn := false, freeCycles := x.periods.sum }

/-- A bad period in REF_LOCKED, malformed or missing: the fourth in a row loses the reference (R168). -/
def Reference.badPeriod (x : Reference) : Reference :=
  if 4 ≤ x.bad + 1 then x.lose else { x with bad := x.bad + 1 }

/-- A period of the pull-in has passed; the pull-in ends within 4,096 of them (R169). A period that an edge ends is
counted, and a missing one is not (log 20). -/
def Reference.countPullIn (x : Reference) : Reference :=
  if x.pullIn then { x with pullPeriods := x.pullPeriods + 1, pullIn := decide (x.pullPeriods + 1 < 4096) } else x

/-- An in-tolerance period in ACQUIRING: the 64th in a row locks (R168). -/
def Reference.qualify (period : Nat) (x : Reference) : Reference :=
  let y := x.keepPeriod period
  if 64 ≤ y.qual + 1 then y.lock else { y with qual := y.qual + 1 }

/-- A rising edge that ends a period (R168; log 19). -/
def Reference.edge (period : Nat) (x : Reference) : Reference :=
  match x.state with
  | .absent => { x with state := .acquiring, qual := 0, missing := 0 }
  | .hold => { x with state := .acquiring, qual := 0, missing := 0 }
  | .acquiring =>
    if inTolerance period then { x with missing := 0 }.qualify period else { x with missing := 0, qual := 0 }
  | .locked =>
    if inTolerance period then { x.countPullIn.keepPeriod period with bad := 0 } else x.countPullIn.badPeriod

/-- A missing period (R168). -/
def Reference.miss (x : Reference) : Reference :=
  match x.state with
  | .absent => x
  | .hold => x
  | .acquiring =>
    if 4 ≤ x.missing + 1 then
      { x with state := if x.everLocked then .hold else .absent, qual := 0, missing := 0 }
    else { x with missing := x.missing + 1 }
  | .locked => x.badPeriod

/-- Moves the reference block; a change of its state raises HOUSE_REF at all three ports (R168). -/
def State.moveRef (f : Reference → Reference) (s : State) : State :=
  let s' := { s with ref := f s.ref }
  if (f s.ref).state = s.ref.state then s' else s'.notifyAll .houseRef

/-- What the reference input showed last (R168; log 21). -/
def State.sawEdge (seen : Bool) (s : State) : State := { s with ref := { s.ref with edgeRecent := seen } }

/-- REF_EDGE (R168). The block runs in LOADING and RUN; in RESET only the input's last edge is noted. -/
def execRefEdge (period : Nat) (s : State) : Host.Outcome State Fault Refusal :=
  .next <|
    if s.ticking then (s.sawEdge true).moveRef (Reference.edge period)
    else if s.startup = .reset then s.sawEdge true
    else s

/-- REF_MISSING_PERIOD (R168). -/
def execRefMissingPeriod (s : State) : Host.Outcome State Fault Refusal :=
  .next <|
    if s.ticking then (s.sawEdge false).moveRef Reference.miss
    else if s.startup = .reset then s.sawEdge false
    else s

/-- The end of a pull-in (R169). -/
def Reference.endPullIn (x : Reference) : Reference := { x with pullIn := false }

/-- PULL_IN_END (R169). -/
def execPullInEnd (s : State) : Host.Outcome State Fault Refusal := .next { s with ref := s.ref.endPullIn }

/-! ### The settings record (R170) -/

/-- The defaults of R170. -/
def defaultSettings : Settings :=
  ⟨.A, true, List.replicate 64 Config.unity, List.replicate 64 0, 20, [0, 0, 0, 0], Config.unity, Config.unity⟩

/-- The record's contents in the order of the table of R170 (log 15). -/
def recordBytes (v : Settings) : List Byte :=
  [progLinkByte v.primary, boolByte v.autoRevert] ++ v.trims.flatMap bytes16 ++ v.distances.flatMap bytes16 ++
    [BitVec.ofInt 8 v.airTemp] ++ v.members.flatMap bytes64 ++ bytes16 v.programmeLevel ++ bytes16 v.masterLevel

/-- A record of values with its check (R170). -/
def recordOf (v : Settings) : SettingsRecord := ⟨v, crc16 (recordBytes v)⟩

/-- Whether every value lies within the range of R170. -/
def settingsInRange (v : Settings) : Bool :=
  decide (v.trims.length = 64) && v.trims.all (fun t => decide (t ≤ 65535)) &&
    decide (v.distances.length = 64) && v.distances.all (fun d => decide (d ≤ 60000)) &&
    decide (-10 ≤ v.airTemp) && decide (v.airTemp ≤ 45) && decide (v.members.length = 4) &&
    decide (v.programmeLevel ≤ Config.unity) && decide (v.masterLevel ≤ Config.unity)

/-- The values of a VALID record: its check matches its contents and every value is in range (R170). -/
def NvMemory.validValues (m : NvMemory) : Option Settings :=
  match m with
  | .blank => none
  | .torn => none
  | .record r => if r = recordOf r.values ∧ settingsInRange r.values = true then some r.values else none

/-! ### Writing the store (R171, R172) -/

/-- The snapshot of the current settings (R171, R138). -/
def State.snapshot (s : State) : Settings :=
  ⟨s.sel.primary, s.sel.autoRevert, s.buses.map Bus.trim, s.buses.map Bus.distance, s.airTemp, s.members,
    s.room.programme.target, s.room.master.target⟩

/-- The store when a write begins (R171). Until the read-back has agreed the memory holds no record (R172). -/
def CalStore.beginWrite (v : Settings) (x : CalStore) : CalStore :=
  { x with memory := .torn, valid := false, writing := some v }

/-- STORE_SETTINGS taken (R171). -/
def takeStoreSettings (p : PortId) (s : State) : State :=
  if s.store.writing.isSome = true ∨ s.startup ≠ .run then s.answer p 0x41 .busy []
  else ({ s with store := s.store.beginWrite s.snapshot }).answer p 0x41 .ok []

/-- The store when a write ends with what was read back (R171; log 16). -/
def CalStore.endWrite (v : Settings) (readBack : SettingsRecord) (x : CalStore) : CalStore :=
  if readBack = recordOf v then { x with memory := .record readBack, valid := true, writing := none, result := .done }
  else { x with memory := .torn, valid := false, writing := none, result := .failed }

/-- STORE_WRITE_END (R171). Without a write running there is no end of one (log 31). -/
def execStoreWriteEnd (readBack : SettingsRecord) (s : State) : Host.Outcome State Fault Refusal :=
  .next <|
    match s.store.writing with
    | none => s
    | some v => ({ s with store := s.store.endWrite v readBack }).notify .C .storeDone

/-! ### Resets and power (R172, R173, R175) -/

/-- RESTART taken (R156, R173): the part is reset at the block end and no answer is held. -/
def takeRestart (s : State) : State := s.toReset .command

/-- ACK_RESET_CAUSE taken (R175). -/
def takeAckResetCause (p : PortId) (s : State) : State := ({ s with cause := ⟨none, false⟩ }).answer p 0x43 .ok []

/-- What does not survive a loss of power besides the blocks' state: the reset cause record and what the input showed
(R175; log 21). -/
def State.forget (s : State) : State :=
  { s with cause := ⟨none, false⟩, ref := { s.ref with edgeRecent := false } }

/-- POWER_ON (R173). -/
def execPowerOn (s : State) : Host.Outcome State Fault Refusal := .next (s.toReset .powerOn).forget

/-- RESET_PIN driven low (R173). In RESET the kind of the reset that began it stays (log 23). -/
def execResetPin (s : State) : Host.Outcome State Fault Refusal :=
  .next <| if s.ticking then s.toReset .pin else s

/-- POWER_LOSS (R172): the part stands without power; the nonvolatile memory keeps what it holds (log 22). -/
def execPowerLoss (s : State) : Host.Outcome State Fault Refusal :=
  .next { (s.toReset .powerOn).forget with startup := .off }

/-- The reset cause record at the end of RESET (R175). -/
def State.recordCause (s : State) : CauseRecord :=
  ⟨some s.resetKind, if s.resetKind = .powerOn then false else s.cause.lost⟩

/-- RESET_END (R173): the cause record is set, the tick and the block count start from 0, the reference block begins
in ACQUIRING or ABSENT (R168), and the load begins. -/
def execResetEnd (s : State) : Host.Outcome State Fault Refusal :=
  .next <|
    if s.startup = .reset then
      { s with
        startup := .loading, cause := s.recordCause, tick := 0, blockCount := 0, samplesDone := 0,
        ref := { s.ref with state := if s.ref.edgeRecent then .acquiring else .absent } }
    else s

end Sys2Proof.Machine
end

