-- ==== Sys2Proof/Machine/Requests.lean ====
section
/-! DEFINITION. The port engines (chapter 10): the checks on a request, its acceptance, the taking of each command, and
the two kinds of selection. -/

namespace Sys2Proof.Machine

/-! ### Rights (R157) and values (check 4 of R152) -/

/-- Whether a port holds the right to a class of commands. An own-link command is judged by the link it names. -/
def classAllows (p : PortId) : Rights → Bool
  | .shared => true
  | .ownLink => true
  | .server => decide (p ≠ .C)
  | .room => decide (p = .C)

/-- Whether a port may restart a link: its own, or any for port C. -/
def mayRestart (p : PortId) (l : LinkId) : Bool := decide (p = .C) || decide (serverPort l = p)

/-- Check 3 of R152 on a request. -/
def holdsRight (p : PortId) (r : Request) : Bool :=
  match codeRights (requestCode r), r with
  | none, _ => false
  | some .ownLink, .linkRestart l => mayRestart p l
  | some c, _ => classAllows p c

/-- Check 4 of R152 on a request's values: the ranges that the owning rules accept. Values that are clamped pass. -/
def argsOk : Request → Bool
  | .getStatus sect => decide (sect ≤ 7)
  | .getCounters sect => decide (sect ≤ 2)
  | .getMeters group => decide (group ≤ 3)
  | .getPosition => true
  | .getSlot kind slot => slotNumberOk kind slot
  | .getNotices => true
  | .setNoticeMask _ => true
  | .setNoticeEnable _ => true
  | .getResetCause => true
  | .cueAdd cue => cueOk cue
  | .cueCancel id => decide (id ≤ 255)
  | .cueList rank => decide (rank ≤ 47)
  | .cueLog => true
  | .roomPush programme master ramp =>
    programme.all (fun v => decide (v ≤ 65535)) && master.all (fun v => decide (v ≤ 65535)) && decide (ramp ≤ 255)
  | .roomPop ramp => decide (ramp ≤ 255)
  | .linkRestart _ => true
  | .linkDisable _ => true
  | .linkEnable _ => true
  | .handover => true
  | .forceProgramme target => (asProg target).isSome
  | .setPrimary link => (asProg link).isSome
  | .setRevert _ => true
  | .setProgrammeLevel level ramp => decide (level ≤ 65535) && decide (ramp ≤ 255)
  | .setMasterLevel level ramp => decide (level ≤ 65535) && decide (ramp ≤ 255)
  | .muteGroup group _ => decide (group ≤ 3)
  | .roomSlotSet slot track gain ramp list => roomSlotSetOk slot track gain ramp list
  | .roomSlotGain slot gain ramp => decide (slot ≤ 7) && decide (gain ≤ 65535) && decide (ramp ≤ 255)
  | .roomSlotClear slot => decide (slot ≤ 7)
  | .setBusTrim bus trim => decide (bus ≤ 63) && decide (trim ≤ 65535)
  | .setBusDistance bus distance => decide (bus ≤ 63) && decide (distance ≤ 65535)
  | .setAirTemp temp => decide (-128 ≤ temp) && decide (temp ≤ 127)
  | .setMuteGroup group buses =>
    decide (group ≤ 3) && decide (buses.length ≤ 64) && buses.all (fun b => decide (b ≤ 63))
  | .clearCounters => true
  | .storeSettings => true
  | .restart => true
  | .ackResetCause => true

/-! ### The four checks (R152) -/

/-- What the checks make of a selection: the answer of the first check that fails, with the code it echoes, or the
request. -/
inductive Checked where
  | fail (status : Status) (code : Byte)
  | pass (r : Request)
  deriving DecidableEq, Repr

/-- Checks 3 and 4 on a request that was read. -/
def checkRequest (p : PortId) (r : Request) : Checked :=
  if holdsRight p r then if argsOk r then .pass r else .fail .badArgument (requestCode r)
  else .fail .notPermitted (requestCode r)

/-- The checks on the bytes of a request selection, in their order. A payload of a wrong length or with an unassigned
byte fails check 4; for LINK_RESTART that comes before check 3 (R157; log 14). -/
def checkFrame (p : PortId) (sent : List Byte) : Checked :=
  match readFrame sent with
  | .bad echo => .fail .badFrame echo
  | .ok code payload =>
    match codeRights code with
    | none => .fail .unknown code
    | some c =>
      match readRequest code payload with
      | some r => checkRequest p r
      | none => if classAllows p c then .fail .badArgument code else .fail .notPermitted code

/-! ### Acceptance (R153, R174) -/

/-- The requests that wait in LOADING (R174). -/
def waitsInLoading : Request → Bool
  | .getStatus _ => true
  | .getResetCause => true
  | _ => false

/-- A BUSY refusal that echoes a code becomes the held refusal (R153). -/
def Port.refuse (code : Byte) (x : Port) : Port := { x with refusal := some code }

/-- The held response and the held refusal are discarded unread (R153). -/
def Port.discard (x : Port) : Port := { x with response := none, refusal := none, live := none }

/-- A request begins to wait for a block end (R154). -/
def Port.await (r : Request) (x : Port) : Port := { x with waiting := some r, due := false }

/-- What a checked request comes to at a port that holds no waiting one (R152, R174). -/
def State.settleRequest (p : PortId) (c : Checked) (s : State) : State :=
  match c with
  | .fail status code => s.answer p code status []
  | .pass r =>
    if s.startup = .loading ∧ waitsInLoading r = false then s.answer p (requestCode r) .busy []
    else s.onPort p (Port.await r)

/-- A request is accepted by a port engine (R152, R153). -/
def State.accept (p : PortId) (code : Byte) (c : Checked) (s : State) : State :=
  match (s.port p).waiting with
  | some _ => s.onPort p (Port.refuse code)
  | none => (s.onPort p Port.discard).settleRequest p c

/-! ### Taking (R154) -/

/-- A request is taken by the block that owns its effect. -/
def takeRequest (p : PortId) (r : Request) (s : State) : State :=
  match r with
  | .getStatus sect => takeGetStatus p sect s
  | .getCounters sect => takeGetCounters p sect s
  | .getMeters group => takeGetMeters p group s
  | .getPosition => takeGetPosition p s
  | .getSlot kind slot => takeGetSlot p kind slot s
  | .getNotices => takeGetNotices p s
  | .setNoticeMask mask => takeSetNoticeMask p mask s
  | .setNoticeEnable on => takeSetNoticeEnable p on s
  | .getResetCause => takeGetResetCause p s
  | .cueAdd cue => takeCueAdd p cue s
  | .cueCancel id => takeCueCancel p id s
  | .cueList rank => takeCueList p rank s
  | .cueLog => takeCueLog p s
  | .roomPush programme master ramp => takeRoomPush p programme master ramp s
  | .roomPop ramp => takeRoomPop p ramp s
  | .linkRestart link => takeLinkRestart p link s
  | .linkDisable link => takeLinkDisable p link s
  | .linkEnable link => takeLinkEnable p link s
  | .handover => takeHandover p s
  | .forceProgramme target => takeForceProgramme p target s
  | .setPrimary link => takeSetPrimary p link s
  | .setRevert on => takeSetRevert p on s
  | .setProgrammeLevel level ramp => takeSetProgrammeLevel p level ramp s
  | .setMasterLevel level ramp => takeSetMasterLevel p level ramp s
  | .muteGroup group on => takeMuteGroup p group on s
  | .roomSlotSet slot track gain ramp list => takeRoomSlotSet p slot track gain ramp list s
  | .roomSlotGain slot gain ramp => takeRoomSlotGain p slot gain ramp s
  | .roomSlotClear slot => takeRoomSlotClear p slot s
  | .setBusTrim bus trim => takeSetBusTrim p bus trim s
  | .setBusDistance bus distance => takeSetBusDistance p bus distance s
  | .setAirTemp temp => takeSetAirTemp p temp s
  | .setMuteGroup group buses => takeSetMuteGroup p group buses s
  | .clearCounters => takeClearCounters p s
  | .storeSettings => takeStoreSettings p s
  | .restart => takeRestart s
  | .ackResetCause => takeAckResetCause p s

/-- Whether a port's waiting request may be taken now: at the instant of a block end still to be worked, or at an open
one that its acceptance preceded (R154; log 5). -/
def State.mayTake (p : PortId) (s : State) : Bool :=
  decide (s.samplesDone = 32) || (s.blockEndOpen && (s.port p).due)

/-- Whether the part stands at a block end. -/
def State.atBlockEnd (s : State) : Bool := decide (s.samplesDone = 32) || s.blockEndOpen

/-- A request frame that carries a command is accepted, and taken at once where a block end falls together with the
acceptance (R154). -/
def State.acceptAndTake (p : PortId) (r : Request) (s : State) : State :=
  let t := s.accept p (requestCode r) (checkRequest p r)
  if s.atBlockEnd = true ∧ (s.port p).waiting = none ∧ (t.port p).waiting = some r then takeRequest p r t else t

/-- A command of the table of R157 at its port: the port's waiting request of that command is taken when the part
stands at a block end for it, and otherwise the command arrives in a request frame (log 5). In RESET and without
power the engines accept nothing (R173). -/
def State.present (p : PortId) (r : Request) (s : State) : State :=
  if s.ticking = false then s
  else if (s.port p).waiting = some r ∧ s.mayTake p = true then takeRequest p r s
  else s.acceptAndTake p r

end Sys2Proof.Machine
end

