-- ==== Sys2Proof/Machine/BlockEnd.lean ====
section
/-! DEFINITION. The block end (R56, R79, R96, R113, R128, R140, R154, R169): the work of every block of the part, the
requests that are due, the close at which the values of the next block are fixed, and the end of the load (R173). -/

namespace Sys2Proof.Machine

/-! ### The close of a block end (log 4) -/

/-- Takes a port's waiting request if it is due at the present block end (R154). -/
def State.sweep (p : PortId) (s : State) : State :=
  match (s.port p).waiting with
  | none => s
  | some r => if (s.port p).due then takeRequest p r s else s

/-- Drops the marks "changed at this block end" and "added at this block end" (R77, R95, R121). -/
def State.dropMarks (s : State) : State :=
  { s with
    scene := { s.scene with
      slots := s.scene.slots.map fun x => { x with ramp := x.ramp.settle },
      roomSlots := s.scene.roomSlots.map fun x => { x with ramp := x.ramp.settle } },
    room := { s.room with programme := s.room.programme.settle, master := s.room.master.settle },
    buses := s.buses.map fun b => { b with mute := b.mute.settle },
    cueing := { s.cueing with cues := s.cueing.cues.map fun c => { c with added := false }, workDone := false } }

/-- What is fixed for the block that begins: the start index, the selector's state, the slot contents with their
effective gains and the output stage's values (R54, R93, R96, R113, R140). -/
def State.fixBlock (s : State) : State :=
  let t := s.captureStart.fixOutput
  { t with mixTerms := t.slotTerms, sel := { t.sel with inForce := t.sel.cur, setHere := false } }

/-- The close of an open block end at which nothing waits any more: in RUN the next block is fixed and the marks are
dropped, and the answers that follow the changes are formed (R161). -/
def State.settleBlockEnd (s : State) : State :=
  let s := if s.startup = .run then s.fixBlock.dropMarks else s
  { ((s.renderLive .A).renderLive .B).renderLive .C with blockEndOpen := false }

/-- Closes an open block end: the requests still due are taken, and the block is settled. A RESTART among the requests
closes it by resetting the part. -/
def State.closeBlockEnd (s : State) : State :=
  if s.blockEndOpen then
    let s := ((s.sweep .A).sweep .B).sweep .C
    if s.blockEndOpen then s.settleBlockEnd else s
  else s

/-! ### The passing of time (R169, log 2) -/

/-- Lets ticks pass. An open block end is an instant, so the first tick closes it (R55, R154; log 4). -/
def State.passTicks (ticks : Nat) (s : State) : State :=
  if min ticks s.runLimit = 0 then s else s.closeBlockEnd.runOn ticks

/-- Closes an open block end when a deadline lies ahead of it and before the next house sample: the expiry then falls
after the block end (R55, R154; log 4). -/
def State.closeBefore (deadline : Option Tick) (s : State) : State :=
  match deadline with
  | none => s
  | some d => if 0 < (d - s.tick).toNat ∧ (d - s.tick).toNat ≤ s.runLimit then s.closeBlockEnd else s

/-! ### BLOCK_END -/

/-- Marks a port's waiting request, accepted before this block end, as due (R154). -/
def Port.markDue (x : Port) : Port := { x with due := x.waiting.isSome }

/-- Marks every port's waiting request as due. -/
def State.markDue (s : State) : State :=
  { s with portA := s.portA.markDue, portB := s.portB.markDue, portC := s.portC.markDue }

/-- The counting of a block end: the tick counter stands at its instant and the house block count increments (R169). -/
def State.countBlock (s : State) : State :=
  { s with tick := s.blockEndTick, blockCount := s.blockCount + 1, samplesDone := 0 }

/-- The interpolator's work on every link (R26, R35, R38). -/
def State.linksBlockEnd (s : State) : State :=
  { s with linkA := s.linkA.blockEnd, linkB := s.linkB.blockEnd, linkC := s.linkC.blockEnd }

/-- What the ending block left for the works of its block end (R80, R113): the closing programme's read index with the
current track count when records may be due, and its read index as the end of the coverage. -/
structure Ending where
  due : Option (ProgLink × FrameIndex × Nat)
  stop : Option (ProgLink × FrameIndex)
  deriving DecidableEq, Repr

/-- What the ending block leaves: taken before any event of the block end, which an offer of alignment does not change
(R80, R113). -/
def State.ending (s : State) : Ending := ⟨s.dueIndex, s.endIndex⟩

/-- One work of a block end in RUN. A part that a RESTART has reset does none. -/
def State.doWork (e : Ending) (w : Work) (s : State) : State :=
  if s.startup = .run then
    match w with
    | .evaluation => s.evaluate
    | .muteSteps => s.stepMutes
    | .scene => s.sceneWork e.due
    | .levels => s.stepLevels
    | .show => s.showWork e.stop
    | .links => s.linksBlockEnd
  else s

/-- Every work, in the order in which those that BLOCK_END does not name are done. -/
def allWorks : List Work := [.evaluation, .muteSteps, .scene, .levels, .show, .links]

/-- The events of a block end in their order: each work once, each due request where it is named, and the works that
are `left` over last (R154; log 6). -/
def State.runEvents (e : Ending) : List BlockEvent → List Work → State → State
  | [], left, s => left.foldl (fun s w => s.doWork e w) s
  | .work w :: rest, left, s =>
    if w ∈ left then State.runEvents e rest (left.erase w) (s.doWork e w) else State.runEvents e rest left s
  | .take p :: rest, left, s => State.runEvents e rest left (s.sweep p)

/-- The events of a block end in RUN. From the first one on, the mix engine mixes (R96). The show position block's work
is still to come, so a LOCATE waits for it (R116). -/
def State.blockWork (order : List BlockEvent) (s : State) : State :=
  State.runEvents s.ending order allWorks
    { s with mixing := true, cueing := { s.cueing with workDone := false } }

/-- A block end of a part whose tick runs and whose last block end is closed. It stays open but for a RESTART taken
among its works. -/
def State.beginBlockEnd (order : List BlockEvent) (s : State) : State :=
  let s := s.countBlock.markDue
  let s := if s.startup = .run then s.blockWork order else s
  if s.ticking then { s with blockEndOpen := true } else s

/-- BLOCK_END. Without a running tick there is none (R173). -/
def execBlockEnd (order : List BlockEvent) (s : State) : Host.Outcome State Fault Refusal :=
  let s := s.closeBlockEnd
  .next <| if s.ticking then s.beginBlockEnd order else s

/-! ### LOAD_END (R173) -/

/-- Every value of a set of settings takes its place: the selector, the output stage with its delays, and the room
state (R170, R173, R145, R147, R138). -/
def State.applySettings (v : Settings) (s : State) : State :=
  let buses := List.zipWith (fun (b : Bus) (td : Nat × Nat) => { b with trim := td.1, distance := td.2 }) s.buses
    (List.zip v.trims v.distances)
  { s with
    sel := { s.sel with primary := v.primary, autoRevert := v.autoRevert },
    airTemp := v.airTemp, members := v.members,
    buses := (computeDelays v.airTemp buses).map Bus.seatDelay,
    room := { s.room with programme := Ramp.rest v.programmeLevel, master := Ramp.rest v.masterLevel } }

/-- The load's judgement of the store (R170, R173, R175). -/
def State.load (s : State) : State :=
  match s.store.memory.validValues with
  | some v => { s.applySettings v with store := { s.store with valid := true }, startup := .run }
  | none =>
    { s.applySettings defaultSettings with
      store := { s.store with valid := false }, cause := { s.cause with lost := true }, startup := .run }

/-- Time runs on to the earliest end of a load, 40,960 ticks after the end of RESET: 2 block ends and 16 house
samples of zeros (R173; log 18). A request that waits is taken at a block end so passed. -/
def State.runToLoadEnd (s : State) : State :=
  let s := (if s.blockCount.toNat < 2 then { s.closeBlockEnd.markDue with blockEndOpen := true } else s).closeBlockEnd
  if s.tick.toNat < 40960 then
    { s with
      tick := 40960, blockCount := 2, samplesDone := 16, outFrame := List.replicate 64 0, outMark := false }
  else s

/-- LOAD_END (R173): only a part in LOADING ends a load, within 57,344 ticks of the end of RESET. -/
def execLoadEnd (s : State) : Host.Outcome State Fault Refusal :=
  .next <| if s.startup = .loading ∧ s.tick.toNat ≤ 57344 then s.runToLoadEnd.load else s

end Sys2Proof.Machine
end

