-- ==== Sys2Proof/Machine/Feed.lean ====
section
/-! DEFINITION. The commands of the feed links (chapter 1): the START, the symbols of a block, and the two timers. -/

namespace Sys2Proof.Machine

/-- START_SYMBOL (R1, R5): begins a block with its capture; a block in assembly is malformed (R6). A START before
RUN, or on a DISABLED link, begins no block. -/
def execStartSymbol (l : LinkId) (ticks : Nat) (s : State) : Host.Outcome State Fault Refusal :=
  let s := s.passTicks ticks
  .next <|
    if s.startup = .run then
      match (s.link l).phase with
      | .off => s
      | .hunt => s.setPhase l (.assemble s.tick [])
      | .assemble _ _ => (s.dropMalformed l).setPhase l (.assemble s.tick [])
    else s

/-- FEED_BLOCK (R1, R6, R7, R10): the symbols after the START. In HUNT they are ignored. -/
def execFeedBlock (l : LinkId) (symbols : List Symbol) (s : State) : Host.Outcome State Fault Refusal :=
  .next <|
    if s.startup = .run then
      match (s.link l).phase with
      | .off => s
      | .hunt => s
      | .assemble capture got =>
        match assemble l got symbols with
        | (.more, bytes) => s.setPhase l (.assemble capture bytes)
        | (.bad, _) => s.dropMalformed l
        | (.ok b, _) => (s.setPhase l .hunt).acceptBlock l b capture
    else s

/-- GAP_TIMER_EXPIRY (R16). A timer that does not run, or whose deadline still lies ahead, does not expire. -/
def execGapTimerExpiry (l : LinkId) (s : State) : Host.Outcome State Fault Refusal :=
  let s := s.closeBefore (s.link l).gapDeadline
  .next <|
    match (s.link l).gapDeadline with
    | none => s
    | some deadline =>
      match s.reach deadline with
      | none => s
      | some s' => s'.expireGap l deadline

/-- HOLDOVER_TIMER_EXPIRY (R17). -/
def execHoldoverTimerExpiry (l : LinkId) (s : State) : Host.Outcome State Fault Refusal :=
  let s := s.closeBefore (s.link l).holdDeadline
  .next <|
    match (s.link l).holdDeadline with
    | none => s
    | some deadline =>
      match s.reach deadline with
      | none => s
      | some s' => s'.expireHoldover l

end Sys2Proof.Machine
end

