-- ==== Sys2Proof/Machine/Sample.lean ====
section
/-! DEFINITION. The house sample (R44, R70, R96 to R106, R141, R148, R149), and the two kinds of selection at a control
port (R151, R155). -/

namespace Sys2Proof.Machine

/-! ### HOUSE_SAMPLE -/

/-- What the 64 buses give at one house sample, bus 0 first (R100, R102). -/
def State.busOutputs (s : State) (programme aux : List Int) : List (Int × Int × Bool × Bus) :=
  s.buses.mapIdx fun i b => b.sample (accumulate s.mixTerms programme aux i)

/-- Raises every port's peak set to the final values (R105). -/
def State.scanMeters (finals : List Int) (s : State) : State :=
  { s with
    portA := { s.portA with peaks := raisePeaks finals s.portA.peaks },
    portB := { s.portB with peaks := raisePeaks finals s.portB.peaks },
    portC := { s.portC with peaks := raisePeaks finals s.portC.peaks } }

/-- The mix engine, the output stage and the meter scan at one house sample (R96, R149). -/
def State.mixSample (programme aux : List Int) (s : State) : State :=
  let outs := s.busOutputs programme aux
  let t := ({ s with
    buses := outs.map fun o => o.2.2.2,
    outFrame := outs.map fun o => o.1 } : State).scanMeters (outs.map fun o => o.2.1)
  if outs.any fun o => o.2.2.1 then t.notify .C .clip else t

/-- A frame of zeros, before the first block end in RUN (R96, R149). -/
def State.zeroFrame (s : State) : State := { s with outFrame := List.replicate 64 0 }

/-- The links are interpolated and advanced, the programme is formed and the buses are mixed (R44, R70). -/
def State.runSample (s : State) : State :=
  let j := s.samplesDone
  let a := s.linkA.sample Config.programmeTracks j
  let b := s.linkB.sample Config.programmeTracks j
  let c := s.linkC.sample Config.auxTracks j
  let t := { s with linkA := a.2, linkB := b.2, linkC := c.2 }
  if s.mixing then t.mixSample (programmeValues s.sel.inForce a.1 b.1) c.1 else t.zeroFrame

/-- The counting of a house sample, and the block mark of a block's first frame (R149, R169). DESIGN CHOICE (log 38): the
first frame after the end of RESET, which begins block 0 and follows no block end, is marked as well. -/
def State.countSample (s : State) : State :=
  { s with tick := s.nextSampleTick, outMark := decide (s.samplesDone = 0), samplesDone := s.samplesDone + 1 }

/-- A house sample of a part whose block end is closed. After the 32nd of a block a block end comes first (R169;
log 2). -/
def State.houseSample (s : State) : State :=
  if s.samplesDone < 32 then
    match s.startup with
    | .off => s
    | .reset => s
    | .loading => s.zeroFrame.countSample
    | .run => s.runSample.countSample
  else s

/-- HOUSE_SAMPLE. -/
def execHouseSample (s : State) : Host.Outcome State Fault Refusal := .next s.closeBlockEnd.houseSample

/-! ### Selections (R151, R155, R164) -/

/-- `n` filler bytes. -/
def filler (n : Nat) : List Byte := List.replicate n 0xFF

/-- A response frame's bytes (R164). -/
def Response.frame (r : Response) : List Byte :=
  let body := [r.status.byte, r.code, byteOf r.payload.length] ++ r.payload
  [0xC3] ++ body ++ [xorBytes body]

/-- The frame that a read selection carries (R155). A read command's answer that still follows the changes of the
block end is not yet there (log 7). -/
def Port.frameToSend (x : Port) : Response :=
  match x.refusal, x.response, x.live, x.waiting with
  | some code, _, _, _ => ⟨.busy, code, []⟩
  | none, some _, some r, _ => ⟨.pending, requestCode r, []⟩
  | none, some response, none, _ => response
  | none, none, _, some r => ⟨.pending, requestCode r, []⟩
  | none, none, _, none => ⟨.pending, 0, []⟩

/-- What a frame sent whole releases: the refusal, or else the response; a PENDING releases nothing (R155). -/
def Port.release (x : Port) : Port :=
  match x.refusal, x.live with
  | some _, _ => { x with refusal := none }
  | none, some _ => x
  | none, none => { x with response := none }

/-- The first `n` bytes of a frame followed by filler (R155). -/
def clockedOut (frame : List Byte) (n : Nat) : List Byte := frame.take n ++ filler (n - frame.length)

/-- A read selection at a port: the frame it carries, and the release when its check byte has gone. The data output is
kept from the byte after the fetch byte on (R151; log 35). -/
def Port.readOut (n : Nat) (x : Port) : Port :=
  let frame := x.frameToSend.frame
  { (if frame.length ≤ n then x.release else x) with dataOut := clockedOut frame n }

/-- The port engine drives the data output with filler. -/
def Port.sendFiller (n : Nat) (x : Port) : Port := { x with dataOut := filler n }

/-- A read selection of a part in any start-up state: in RESET the engines send filler (R173); a read comes after the
work of an open block end (log 4). -/
def State.readSelection (p : PortId) (n : Nat) (s : State) : State :=
  let s := s.closeBlockEnd
  match s.startup with
  | .off => s
  | .reset => s.onPort p (Port.sendFiller n)
  | .loading => s.onPort p (Port.readOut n)
  | .run => s.onPort p (Port.readOut n)

/-- READ_SELECTION (R155). -/
def execReadSelection (p : PortId) (n : Nat) (s : State) : Host.Outcome State Fault Refusal :=
  .next (s.readSelection p n)

/-- A request selection of `sent` bytes, the first of which is not the fetch byte (R151, R152). -/
def State.requestSelection (p : PortId) (sent : List Byte) (s : State) : State :=
  match s.startup with
  | .off => s
  | .reset => s.onPort p (Port.sendFiller sent.length)
  | .loading => (s.accept p (codeByte sent) (checkFrame p sent)).onPort p (Port.sendFiller sent.length)
  | .run => (s.accept p (codeByte sent) (checkFrame p sent)).onPort p (Port.sendFiller sent.length)

/-- REQUEST_SELECTION (R151). The fetch byte first makes the selection a read selection; without one whole byte it does
nothing. -/
def execRequestSelection (p : PortId) (sent : List Byte) (s : State) : Host.Outcome State Fault Refusal :=
  .next <|
    match sent with
    | [] => s
    | b :: rest => if b = 0x5A then s.readSelection p rest.length else s.requestSelection p (b :: rest)

end Sys2Proof.Machine
end

