-- ==== Sys2Proof/Machine/Commands.lean ====
section
/-! DEFINITION. The request commands (R157): each row of the table that a master sends in a request frame, presented at
its port (log 5). What taking it does is the owning block's `take...` definition, reached through `takeRequest`. -/

namespace Sys2Proof.Machine

/-- LINK_RESTART (R22). -/
def execLinkRestart (port : PortId) (link : LinkId) (s : State) : Host.Outcome State Fault Refusal :=
  .next (s.present port (.linkRestart link))

/-- LINK_DISABLE (R21). -/
def execLinkDisable (port : PortId) (link : LinkId) (s : State) : Host.Outcome State Fault Refusal :=
  .next (s.present port (.linkDisable link))

/-- LINK_ENABLE (R21). -/
def execLinkEnable (port : PortId) (link : LinkId) (s : State) : Host.Outcome State Fault Refusal :=
  .next (s.present port (.linkEnable link))

/-- HANDOVER (R66). -/
def execHandover (port : PortId) (s : State) : Host.Outcome State Fault Refusal :=
  .next (s.present port .handover)

/-- FORCE_PROGRAMME (R67). -/
def execForceProgramme (port : PortId) (target : LinkId) (s : State) : Host.Outcome State Fault Refusal :=
  .next (s.present port (.forceProgramme target))

/-- SET_PRIMARY (R68). -/
def execSetPrimary (port : PortId) (link : LinkId) (s : State) : Host.Outcome State Fault Refusal :=
  .next (s.present port (.setPrimary link))

/-- SET_REVERT (R68). -/
def execSetRevert (port : PortId) (on : Bool) (s : State) : Host.Outcome State Fault Refusal :=
  .next (s.present port (.setRevert on))

/-- GET_SLOT (R94). -/
def execGetSlot (port : PortId) (kind : SlotKind) (slot : Nat) (s : State) : Host.Outcome State Fault Refusal :=
  .next (s.present port (.getSlot kind slot))

/-- ROOM_SLOT_SET (R90). -/
def execRoomSlotSet (port : PortId) (slot track gain ramp : Nat) (list : List Contribution) (s : State) : Host.Outcome State Fault Refusal :=
  .next (s.present port (.roomSlotSet slot track gain ramp list))

/-- ROOM_SLOT_GAIN (R91). -/
def execRoomSlotGain (port : PortId) (slot gain ramp : Nat) (s : State) : Host.Outcome State Fault Refusal :=
  .next (s.present port (.roomSlotGain slot gain ramp))

/-- ROOM_SLOT_CLEAR (R91). -/
def execRoomSlotClear (port : PortId) (slot : Nat) (s : State) : Host.Outcome State Fault Refusal :=
  .next (s.present port (.roomSlotClear slot))

/-- GET_METERS (R107). -/
def execGetMeters (port : PortId) (group : Nat) (s : State) : Host.Outcome State Fault Refusal :=
  .next (s.present port (.getMeters group))

/-- CLEAR_COUNTERS (R163). -/
def execClearCounters (port : PortId) (s : State) : Host.Outcome State Fault Refusal :=
  .next (s.present port .clearCounters)

/-- GET_COUNTERS (R162). -/
def execGetCounters (port : PortId) (sect : Nat) (s : State) : Host.Outcome State Fault Refusal :=
  .next (s.present port (.getCounters sect))

/-- GET_STATUS (R161). -/
def execGetStatus (port : PortId) (sect : Nat) (s : State) : Host.Outcome State Fault Refusal :=
  .next (s.present port (.getStatus sect))

/-- GET_POSITION (R125). -/
def execGetPosition (port : PortId) (s : State) : Host.Outcome State Fault Refusal :=
  .next (s.present port .getPosition)

/-- CUE_ADD (R121). -/
def execCueAdd (port : PortId) (cue : CueSpec) (s : State) : Host.Outcome State Fault Refusal :=
  .next (s.present port (.cueAdd cue))

/-- CUE_CANCEL (R122). -/
def execCueCancel (port : PortId) (id : Nat) (s : State) : Host.Outcome State Fault Refusal :=
  .next (s.present port (.cueCancel id))

/-- CUE_LOG (R123). -/
def execCueLog (port : PortId) (s : State) : Host.Outcome State Fault Refusal :=
  .next (s.present port .cueLog)

/-- CUE_LIST (R124). -/
def execCueList (port : PortId) (rank : Nat) (s : State) : Host.Outcome State Fault Refusal :=
  .next (s.present port (.cueList rank))

/-- SET_PROGRAMME_LEVEL (R129). -/
def execSetProgrammeLevel (port : PortId) (level ramp : Nat) (s : State) : Host.Outcome State Fault Refusal :=
  .next (s.present port (.setProgrammeLevel level ramp))

/-- SET_MASTER_LEVEL (R129). -/
def execSetMasterLevel (port : PortId) (level ramp : Nat) (s : State) : Host.Outcome State Fault Refusal :=
  .next (s.present port (.setMasterLevel level ramp))

/-- MUTE_GROUP (R130). -/
def execMuteGroup (port : PortId) (group : Nat) (on : Bool) (s : State) : Host.Outcome State Fault Refusal :=
  .next (s.present port (.muteGroup group on))

/-- ROOM_PUSH (R132). -/
def execRoomPush (port : PortId) (programme master : Option Nat) (ramp : Nat) (s : State) : Host.Outcome State Fault Refusal :=
  .next (s.present port (.roomPush programme master ramp))

/-- ROOM_POP (R133). -/
def execRoomPop (port : PortId) (ramp : Nat) (s : State) : Host.Outcome State Fault Refusal :=
  .next (s.present port (.roomPop ramp))

/-- SET_BUS_TRIM (R142). -/
def execSetBusTrim (port : PortId) (bus trim : Nat) (s : State) : Host.Outcome State Fault Refusal :=
  .next (s.present port (.setBusTrim bus trim))

/-- SET_MUTE_GROUP (R143). -/
def execSetMuteGroup (port : PortId) (group : Nat) (buses : List Nat) (s : State) : Host.Outcome State Fault Refusal :=
  .next (s.present port (.setMuteGroup group buses))

/-- SET_AIR_TEMP (R146). -/
def execSetAirTemp (port : PortId) (temp : Int) (s : State) : Host.Outcome State Fault Refusal :=
  .next (s.present port (.setAirTemp temp))

/-- SET_BUS_DISTANCE (R146). -/
def execSetBusDistance (port : PortId) (bus distance : Nat) (s : State) : Host.Outcome State Fault Refusal :=
  .next (s.present port (.setBusDistance bus distance))

/-- GET_NOTICES (R160). -/
def execGetNotices (port : PortId) (s : State) : Host.Outcome State Fault Refusal :=
  .next (s.present port .getNotices)

/-- SET_NOTICE_MASK (R160). -/
def execSetNoticeMask (port : PortId) (mask : BitVec 16) (s : State) : Host.Outcome State Fault Refusal :=
  .next (s.present port (.setNoticeMask mask))

/-- SET_NOTICE_ENABLE (R160). -/
def execSetNoticeEnable (port : PortId) (on : Bool) (s : State) : Host.Outcome State Fault Refusal :=
  .next (s.present port (.setNoticeEnable on))

/-- STORE_SETTINGS (R171). -/
def execStoreSettings (port : PortId) (s : State) : Host.Outcome State Fault Refusal :=
  .next (s.present port .storeSettings)

/-- RESTART (R173). -/
def execRestart (port : PortId) (s : State) : Host.Outcome State Fault Refusal :=
  .next (s.present port .restart)

/-- GET_RESET_CAUSE (R175). -/
def execGetResetCause (port : PortId) (s : State) : Host.Outcome State Fault Refusal :=
  .next (s.present port .getResetCause)

/-- ACK_RESET_CAUSE (R175). -/
def execAckResetCause (port : PortId) (s : State) : Host.Outcome State Fault Refusal :=
  .next (s.present port .ackResetCause)

end Sys2Proof.Machine
end

