-- ==== Sys2Proof/Machine/Dispatch.lean ====
section
/-! DEFINITION. The meaning of each command: one direct call for each constructor of `Instr`. -/

namespace Sys2Proof.Machine

/-- A command's effect on everything but the queue of commands that wait. -/
def exec (i : Instr) (s : State) : Host.Outcome State Fault Refusal :=
  match i with
  | .startSymbol link ticks => Sys2Proof.Machine.execStartSymbol link ticks s
  | .feedBlock link symbols => Sys2Proof.Machine.execFeedBlock link symbols s
  | .gapTimerExpiry link => Sys2Proof.Machine.execGapTimerExpiry link s
  | .holdoverTimerExpiry link => Sys2Proof.Machine.execHoldoverTimerExpiry link s
  | .houseSample => Sys2Proof.Machine.execHouseSample s
  | .blockEnd order => Sys2Proof.Machine.execBlockEnd order s
  | .requestSelection port sent => Sys2Proof.Machine.execRequestSelection port sent s
  | .readSelection port clocked => Sys2Proof.Machine.execReadSelection port clocked s
  | .linkRestart port link => Sys2Proof.Machine.execLinkRestart port link s
  | .linkDisable port link => Sys2Proof.Machine.execLinkDisable port link s
  | .linkEnable port link => Sys2Proof.Machine.execLinkEnable port link s
  | .handover port => Sys2Proof.Machine.execHandover port s
  | .forceProgramme port target => Sys2Proof.Machine.execForceProgramme port target s
  | .setPrimary port link => Sys2Proof.Machine.execSetPrimary port link s
  | .setRevert port on => Sys2Proof.Machine.execSetRevert port on s
  | .getSlot port kind slot => Sys2Proof.Machine.execGetSlot port kind slot s
  | .roomSlotSet port slot track gain ramp list => Sys2Proof.Machine.execRoomSlotSet port slot track gain ramp list s
  | .roomSlotGain port slot gain ramp => Sys2Proof.Machine.execRoomSlotGain port slot gain ramp s
  | .roomSlotClear port slot => Sys2Proof.Machine.execRoomSlotClear port slot s
  | .getMeters port group => Sys2Proof.Machine.execGetMeters port group s
  | .clearCounters port => Sys2Proof.Machine.execClearCounters port s
  | .getCounters port sect => Sys2Proof.Machine.execGetCounters port sect s
  | .getStatus port sect => Sys2Proof.Machine.execGetStatus port sect s
  | .getPosition port => Sys2Proof.Machine.execGetPosition port s
  | .cueAdd port cue => Sys2Proof.Machine.execCueAdd port cue s
  | .cueCancel port id => Sys2Proof.Machine.execCueCancel port id s
  | .cueLog port => Sys2Proof.Machine.execCueLog port s
  | .cueList port rank => Sys2Proof.Machine.execCueList port rank s
  | .setProgrammeLevel port level ramp => Sys2Proof.Machine.execSetProgrammeLevel port level ramp s
  | .setMasterLevel port level ramp => Sys2Proof.Machine.execSetMasterLevel port level ramp s
  | .muteGroup port group on => Sys2Proof.Machine.execMuteGroup port group on s
  | .roomPush port programme master ramp => Sys2Proof.Machine.execRoomPush port programme master ramp s
  | .roomPop port ramp => Sys2Proof.Machine.execRoomPop port ramp s
  | .setBusTrim port bus trim => Sys2Proof.Machine.execSetBusTrim port bus trim s
  | .setMuteGroup port group buses => Sys2Proof.Machine.execSetMuteGroup port group buses s
  | .setAirTemp port temp => Sys2Proof.Machine.execSetAirTemp port temp s
  | .setBusDistance port bus distance => Sys2Proof.Machine.execSetBusDistance port bus distance s
  | .getNotices port => Sys2Proof.Machine.execGetNotices port s
  | .setNoticeMask port mask => Sys2Proof.Machine.execSetNoticeMask port mask s
  | .setNoticeEnable port on => Sys2Proof.Machine.execSetNoticeEnable port on s
  | .storeSettings port => Sys2Proof.Machine.execStoreSettings port s
  | .storeWriteEnd readBack => Sys2Proof.Machine.execStoreWriteEnd readBack s
  | .restart port => Sys2Proof.Machine.execRestart port s
  | .getResetCause port => Sys2Proof.Machine.execGetResetCause port s
  | .ackResetCause port => Sys2Proof.Machine.execAckResetCause port s
  | .powerOn => Sys2Proof.Machine.execPowerOn s
  | .resetPin => Sys2Proof.Machine.execResetPin s
  | .resetEnd => Sys2Proof.Machine.execResetEnd s
  | .loadEnd => Sys2Proof.Machine.execLoadEnd s
  | .refEdge period => Sys2Proof.Machine.execRefEdge period s
  | .refMissingPeriod => Sys2Proof.Machine.execRefMissingPeriod s
  | .pullInEnd => Sys2Proof.Machine.execPullInEnd s
  | .powerLoss => Sys2Proof.Machine.execPowerLoss s

end Sys2Proof.Machine
end

