-- ==== Sys2Proof/Machine/Step.lean ====
section
/-! DEFINITION. One step of the machine: the command at the front of the queue (log 1). -/

namespace Sys2Proof.Machine

/-- One step: the command at the front of the queue is taken from it and has its effect. With nothing waiting one
master tick passes, up to the tick before the next house sample, and closes an open block end (R169; log 1, 2, 4). -/
def step (s : State) : Host.Outcome State Fault Refusal :=
  match s.pending with
  | [] => .next (s.passTicks 1)
  | c :: rest => exec c { s with pending := rest }

/-- The state with the command that a table word spells at the front of its queue. No word spells one
(Sys2Proof/Decode.lean), so the state stands as it is. -/
def State.withFetchWord (s : State) (nbits w : Nat) : State :=
  match Sys2Proof.decodeTableWord nbits w with
  | none => s
  | some c => { s with pending := c :: s.pending }

end Sys2Proof.Machine
end

