-- ==== Sys2Proof/WellFormed.lean ====
section
/-! DEFINITION. Well-formed commands: operands that the wires can carry (R3, R164) and that the part's lists can
hold. Whether a carried value is also acceptable is the port engine's check 4 (R152), in Machine/Requests.lean. -/

namespace Sys2Proof

/-- A value one byte carries. -/
def isByte (n : Nat) : Bool := decide (n < 256)

/-- A value two bytes carry. -/
def isHalf (n : Nat) : Bool := decide (n < 65536)

/-- A contribution as ROOM_SLOT_SET carries it (R164). -/
def Contribution.wf (c : Contribution) : Bool := isByte c.bus && isHalf c.weight

/-- A level field that may be absent. -/
def levelWf (l : Option Nat) : Bool := l.all isHalf

/-- A cue action's arguments as CUE_ADD carries them (R164). -/
def CueAction.wf : CueAction → Bool
  | .programmeLevel level ramp => isHalf level && isByte ramp
  | .roomPush programme master ramp => levelWf programme && levelWf master && isByte ramp
  | .roomPop ramp => isByte ramp
  | .muteGroup group _ => isByte group
  | .notify => true

/-- CUE_ADD's payload (R164). -/
def CueSpec.wf (c : CueSpec) : Bool :=
  isByte c.id && c.reel.all isByte && c.frame.all isHalf && c.offset.all isHalf && c.action.wf

/-- A settings record has a value for each of the 64 buses and 4 mute groups (R170). -/
def Settings.wf (v : Settings) : Bool :=
  decide (v.trims.length = 64) && v.trims.all isHalf && decide (v.distances.length = 64) && v.distances.all isHalf &&
    decide (v.members.length = 4) && decide (-128 ≤ v.airTemp) && decide (v.airTemp ≤ 127) &&
    isHalf v.programmeLevel && isHalf v.masterLevel

/-- A request whose values its frame can carry (R164): a payload of at most 250 bytes. -/
def Request.wf : Request → Bool
  | .getStatus sect | .getCounters sect => isByte sect
  | .getMeters group => isByte group
  | .getPosition | .getNotices | .setNoticeMask _ | .setNoticeEnable _ | .getResetCause => true
  | .getSlot _ slot => isByte slot
  | .cueAdd cue => cue.wf
  | .cueCancel id => isByte id
  | .cueList rank => isByte rank
  | .cueLog => true
  | .roomPush programme master ramp => levelWf programme && levelWf master && isByte ramp
  | .roomPop ramp => isByte ramp
  | .linkRestart _ | .linkDisable _ | .linkEnable _ => true
  | .handover | .forceProgramme _ | .setPrimary _ | .setRevert _ => true
  | .setProgrammeLevel level ramp | .setMasterLevel level ramp => isHalf level && isByte ramp
  | .muteGroup group _ => isByte group
  | .roomSlotSet slot track gain ramp list =>
    isByte slot && isByte track && isHalf gain && isByte ramp && decide (list.length ≤ 81) && list.all Contribution.wf
  | .roomSlotGain slot gain ramp => isByte slot && isHalf gain && isByte ramp
  | .roomSlotClear slot => isByte slot
  | .setBusTrim bus trim => isByte bus && isHalf trim
  | .setBusDistance bus distance => isByte bus && isHalf distance
  | .setAirTemp temp => decide (-128 ≤ temp) && decide (temp ≤ 127)
  | .setMuteGroup group buses => isByte group && decide (buses.length ≤ 248) && buses.all isByte
  | .clearCounters | .storeSettings | .restart | .ackResetCause => true

/-- A command whose operands its wires can carry. A START arrives within one house sample of the event before it
(R169: every house sample is itself a command); a reference period is at least one crystal cycle. -/
def Instr.wf : Instr → Bool
  | .startSymbol _ ticks => decide (ticks < 512)
  | .feedBlock _ _ | .gapTimerExpiry _ | .holdoverTimerExpiry _ => true
  | .houseSample | .blockEnd _ => true
  | .requestSelection _ _ | .readSelection _ _ => true
  | .linkRestart _ _ | .linkDisable _ _ | .linkEnable _ _ => true
  | .handover _ | .forceProgramme _ _ | .setPrimary _ _ | .setRevert _ _ => true
  | .getSlot _ _ slot => isByte slot
  | .roomSlotSet _ slot track gain ramp list =>
    isByte slot && isByte track && isHalf gain && isByte ramp && decide (list.length ≤ 81) && list.all Contribution.wf
  | .roomSlotGain _ slot gain ramp => isByte slot && isHalf gain && isByte ramp
  | .roomSlotClear _ slot => isByte slot
  | .getMeters _ group => isByte group
  | .clearCounters _ => true
  | .getCounters _ sect | .getStatus _ sect => isByte sect
  | .getPosition _ => true
  | .cueAdd _ cue => cue.wf
  | .cueCancel _ id => isByte id
  | .cueLog _ => true
  | .cueList _ rank => isByte rank
  | .setProgrammeLevel _ level ramp | .setMasterLevel _ level ramp => isHalf level && isByte ramp
  | .muteGroup _ group _ => isByte group
  | .roomPush _ programme master ramp => levelWf programme && levelWf master && isByte ramp
  | .roomPop _ ramp => isByte ramp
  | .setBusTrim _ bus trim => isByte bus && isHalf trim
  | .setMuteGroup _ group buses => isByte group && decide (buses.length ≤ 248) && buses.all isByte
  | .setAirTemp _ temp => decide (-128 ≤ temp) && decide (temp ≤ 127)
  | .setBusDistance _ bus distance => isByte bus && isHalf distance
  | .getNotices _ | .setNoticeMask _ _ | .setNoticeEnable _ _ => true
  | .storeSettings _ => true
  | .storeWriteEnd readBack => readBack.values.wf
  | .restart _ | .getResetCause _ | .ackResetCause _ => true
  | .powerOn | .resetPin | .resetEnd | .loadEnd => true
  | .refEdge period => decide (0 < period)
  | .refMissingPeriod | .pullInEnd | .powerLoss => true

end Sys2Proof
end

