-- ==== Sys2Proof/Safety.lean ====
section
/-! DEFINITION. What a safe run is, the laws of the device that every step keeps, and the terms in which the
statements speak of answers and of what a command leaves alone. -/

namespace Sys2Proof.Machine

/-! ### Completion -/

/-- A command answers a next state, of which `P` holds. -/
def Completes (c : Instr) (s : State) (P : State → Prop) : Prop := ∃ t, exec c s = .next t ∧ P t

/-- A step is safe when it answers a next state: the spec gives the part no fault that stops it. -/
def SafeStep (s : State) : Prop := ∃ t, step s = .next t

/-- A law is kept by every step. -/
def KeptByEveryStep (law : State → Prop) : Prop := ∀ s t : State, law s → step s = .next t → law t

/-! ### Requests and answers (R153, R154) -/

/-- In RUN, a port's waiting request is `r` and may be taken now: the part stands at the instant of a block end still to
be worked, or at an open one that the request's acceptance preceded (R154; log 5). -/
def Takable (p : PortId) (r : Request) (s : State) : Prop :=
  s.startup = .run ∧ (s.port p).waiting = some r ∧
    (s.samplesDone = 32 ∨ (s.blockEndOpen = true ∧ (s.port p).due = true))

/-- In LOADING, a port's waiting request is `r` and may be taken now, as in RUN (R174; log 5). -/
def TakableLoading (p : PortId) (r : Request) (s : State) : Prop :=
  s.startup = .loading ∧ (s.port p).waiting = some r ∧
    (s.samplesDone = 32 ∨ (s.blockEndOpen = true ∧ (s.port p).due = true))

/-- A port as an answer leaves it (R153). -/
def Port.answered (status : Status) (code : Byte) (payload : List Byte) (x : Port) : Port :=
  { x with waiting := none, due := false, response := some ⟨status, code, payload⟩, live := none }

/-- From `s` to `t`, port `p` went over to `x` and no other port changed. -/
def OnlyPort (p : PortId) (x : Port) (s t : State) : Prop := t.port p = x ∧ ∀ q, q ≠ p → t.port q = s.port q

/-- From `s` to `t`, a command was answered at port `p` and no port changed otherwise. -/
def Answered (p : PortId) (status : Status) (code : Byte) (payload : List Byte) (s t : State) : Prop :=
  OnlyPort p ((s.port p).answered status code payload) s t

/-- The command of the table that presents a request at a port (R157; log 5). -/
def commandOf (p : PortId) : Request → Instr
  | .getStatus sect => .getStatus p sect
  | .getCounters sect => .getCounters p sect
  | .getMeters group => .getMeters p group
  | .getPosition => .getPosition p
  | .getSlot kind slot => .getSlot p kind slot
  | .getNotices => .getNotices p
  | .setNoticeMask mask => .setNoticeMask p mask
  | .setNoticeEnable on => .setNoticeEnable p on
  | .getResetCause => .getResetCause p
  | .cueAdd cue => .cueAdd p cue
  | .cueCancel id => .cueCancel p id
  | .cueList rank => .cueList p rank
  | .cueLog => .cueLog p
  | .roomPush programme master ramp => .roomPush p programme master ramp
  | .roomPop ramp => .roomPop p ramp
  | .linkRestart link => .linkRestart p link
  | .linkDisable link => .linkDisable p link
  | .linkEnable link => .linkEnable p link
  | .handover => .handover p
  | .forceProgramme target => .forceProgramme p target
  | .setPrimary link => .setPrimary p link
  | .setRevert on => .setRevert p on
  | .setProgrammeLevel level ramp => .setProgrammeLevel p level ramp
  | .setMasterLevel level ramp => .setMasterLevel p level ramp
  | .muteGroup group on => .muteGroup p group on
  | .roomSlotSet slot track gain ramp list => .roomSlotSet p slot track gain ramp list
  | .roomSlotGain slot gain ramp => .roomSlotGain p slot gain ramp
  | .roomSlotClear slot => .roomSlotClear p slot
  | .setBusTrim bus trim => .setBusTrim p bus trim
  | .setBusDistance bus distance => .setBusDistance p bus distance
  | .setAirTemp temp => .setAirTemp p temp
  | .setMuteGroup group buses => .setMuteGroup p group buses
  | .clearCounters => .clearCounters p
  | .storeSettings => .storeSettings p
  | .restart => .restart p
  | .ackResetCause => .ackResetCause p

/-- None of the requests that an order names waits at its port. -/
def NoTakes (order : List BlockEvent) (s : State) : Prop :=
  ∀ p, BlockEvent.take p ∈ order → (s.port p).waiting = none

/-- From `s` to `t`, a notice was raised at every port and `p` was answered. -/
def AnsweredRaising (n : Notice) (p : PortId) (status : Status) (code : Byte) (payload : List Byte) (s t : State) :
    Prop :=
  t.port p = ((s.port p).answered status code payload).raise n ∧ ∀ q, q ≠ p → t.port q = (s.port q).raise n

/-- From `s` to `t`, a notice was raised at every port and no port changed otherwise. -/
def RaisedAtAll (n : Notice) (s t : State) : Prop := ∀ q, t.port q = (s.port q).raise n

/-- `s` with the ports of `t`: what a command leaves alone is said by comparing `t` with it. -/
def State.withPortsOf (s t : State) : State := { s with portA := t.portA, portB := t.portB, portC := t.portC }

/-! ### Bytes on the wires (R164) -/

/-- A value in `n` bytes, most significant byte first. -/
def wire (n v : Nat) : List Byte := (List.range n).reverse.map fun i => BitVec.ofNat 8 (v / 256 ^ i)

/-- A signed value in `n` bytes, two's complement. -/
def wireSigned (n : Nat) (v : Int) : List Byte := wire n (v % (256 ^ n : Nat)).toNat

/-- An on or off byte. -/
def wireBool (b : Bool) : List Byte := wire 1 (if b then 1 else 0)

/-- A gain ramp: current, target and remaining. -/
def wireRamp (x : Ramp) : List Byte := wire 2 x.current ++ wire 2 x.target ++ wire 1 x.remaining

/-- A list of contributions: for each its bus and its weight. -/
def wireList (list : List Contribution) : List Byte := list.flatMap fun c => wire 1 c.bus ++ wire 2 c.weight

/-- Mute group states: bit g for group g. -/
def wireGroups (groups : List Bool) : List Byte := wire 1 (groups.foldr (fun on n => (if on then 1 else 0) + 2 * n) 0)

/-- A link field that may name none. -/
def wireLink : Option ProgLink → List Byte
  | some .A => [0]
  | some .B => [1]
  | none => [0xFF]

/-- A slot state. -/
def wireSlotState : SlotState → List Byte
  | .free => [0]
  | .active => [1]
  | .releasing => [2]

/-- A transport. -/
def wireTransport : Transport → List Byte
  | .play => [1]
  | .hold => [2]

/-- A port. -/
def wirePort : PortId → List Byte
  | .A => [0]
  | .B => [1]
  | .C => [2]

/-- A cue's mode. -/
def wireMode : CueMode → List Byte
  | .once => [0]
  | .repeats => [1]

/-- A cue's action kind and its arguments, as for the matching command. -/
def wireAction : CueAction → Byte × List Byte
  | .programmeLevel level ramp => (0, wire 2 level ++ wire 1 ramp)
  | .roomPush programme master ramp =>
    (1, wire 1 ((if programme.isSome then 1 else 0) + (if master.isSome then 2 else 0)) ++ wire 2 (programme.getD 0) ++
      wire 2 (master.getD 0) ++ wire 1 ramp)
  | .roomPop ramp => (2, wire 1 ramp)
  | .muteGroup group on => (3, wire 1 group ++ wireBool on)
  | .notify => (4, [])

/-- A metadata record as a server sends it (R166). -/
def wireRecord : MetaRecord → List Byte
  | .slotSet slot track gain ramp list =>
    [1] ++ wire 1 (6 + 3 * list.length) ++ wire 1 slot ++ wire 1 track ++ wire 2 gain ++ wire 1 ramp ++
      wire 1 list.length ++ wireList list
  | .slotGain slot gain ramp => [2, 4] ++ wire 1 slot ++ wire 2 gain ++ wire 1 ramp
  | .slotMove slot list =>
    [3] ++ wire 1 (2 + 3 * list.length) ++ wire 1 slot ++ wire 1 list.length ++ wireList list
  | .slotRelease slot ramp => [4, 2] ++ wire 1 slot ++ wire 1 ramp
  | .sceneRelease ramp => [5, 1] ++ wire 1 ramp

/-- A list that a record can carry (R3). -/
def CarriedList (list : List Contribution) : Prop :=
  list.length ≤ 83 ∧ ∀ c ∈ list, c.bus < 256 ∧ c.weight < 65536

/-- A record that a feed block can carry (R3). -/
def Carried : MetaRecord → Prop
  | .slotSet slot track gain ramp list => slot < 256 ∧ track < 256 ∧ gain < 65536 ∧ ramp < 256 ∧ CarriedList list
  | .slotGain slot gain ramp => slot < 256 ∧ gain < 65536 ∧ ramp < 256
  | .slotMove slot list => slot < 256 ∧ CarriedList list
  | .slotRelease slot ramp => slot < 256 ∧ ramp < 256
  | .sceneRelease ramp => ramp < 256

/-- The bits of a byte, most significant first. -/
def wireBits (b : Byte) : List Bool := (List.range 8).map fun i => b.getLsbD (7 - i)

/-- The cyclic check of R4 bit by bit: the register, preset to all ones, moves up by one bit at each bit that enters, and
the generator x^16 + x^12 + x^5 + 1 is subtracted when the bit that falls out differs from the one that enters. -/
def wireCheck (bytes : List Byte) : BitVec 16 :=
  (bytes.flatMap wireBits).foldl (fun r bit => if r.msb ≠ bit then (r <<< 1) ^^^ 0x1021#16 else r <<< 1) 0xFFFF#16

/-- The settings record's contents in the order of the table of R170 (log 15). -/
def wireSettings (v : Settings) : List Byte :=
  wireLink (some v.primary) ++ wireBool v.autoRevert ++ v.trims.flatMap (wire 2) ++ v.distances.flatMap (wire 2) ++
    wireSigned 1 v.airTemp ++ (v.members.flatMap fun m => wire 8 m.toNat) ++ wire 2 v.programmeLevel ++
    wire 2 v.masterLevel

/-- Every value of a settings record lies within the range of the table of R170. -/
def InRecordRange (v : Settings) : Prop :=
  v.trims.length = 64 ∧ (∀ t ∈ v.trims, t ≤ 65535) ∧ v.distances.length = 64 ∧ (∀ d ∈ v.distances, d ≤ 60000) ∧
    -10 ≤ v.airTemp ∧ v.airTemp ≤ 45 ∧ v.members.length = 4 ∧ v.programmeLevel ≤ 32768 ∧ v.masterLevel ≤ 32768

/-! ### Links -/

/-- A link emptied and cleared by an entry into SEARCH or DISABLED (R18, R21, R42): frames written, the ring, the
status record, the counters and reception stay. -/
def EmptiedLink (x y : Link) : Prop :=
  y.run = 0 ∧ y.gapDeadline = none ∧ y.holdDeadline = none ∧ y.held = 0 ∧ y.stamps = [] ∧ y.history = [] ∧
    y.queue = [] ∧ y.contRef = none ∧ y.measuredOffset = 0 ∧ y.measured = false ∧ y.target = 0 ∧ y.applied = 0 ∧
    y.readPos = none ∧ y.departing = none ∧ y.fadeIn = false ∧ y.written = x.written ∧ y.ring = x.ring ∧
    y.seq = x.seq ∧ y.tracks = x.tracks ∧ y.transport = x.transport ∧ y.health = x.health ∧ y.pull = x.pull

/-- `s` with the links of `t`. -/
def State.withLinksOf (s t : State) : State := { s with linkA := t.linkA, linkB := t.linkB, linkC := t.linkC }

/-- From `x` to `y`, a block's 32 frames were written at the next 32 frame indices of a link, and every other place of its
ring stayed (R10, R25). -/
def BlockWritten (frames : List (List Int)) (x y : Link) : Prop :=
  y.written = x.written + 32 ∧ y.held = min 256 (x.held + 32) ∧ y.ring = writeFrames x.ring x.written frames ∧
    (x.ring.length = 256 → frames.length = 32 → ∀ i : FrameIndex,
      let place := (i - x.written).toNat % 256
      y.frame i = if place < 32 then frames.getD place [] else x.frame i)

/-- What a stamp that enters makes of a link's stamp queue and its continuity reference. The queue keeps the newest 16
(R27). The locate mark is set for a PLAY stamp of link A or B that is not the reference plus 32 in the same reel, and a
PLAY stamp becomes the reference (R112). -/
def stampEnters (l : LinkId) (before : List Stamp × Option ShowPos)
    (e : FrameIndex × ShowPos × Transport × Nat) : List Stamp × Option ShowPos :=
  let (first, pos, transport, tracks) := e
  let plays := decide (l ≠ .C ∧ transport = .play)
  let mark := plays && (match before.2 with
    | none => false
    | some r => decide (pos ≠ ⟨r.reel, (r.lin + 32) % 131072000⟩))
  let all := before.1 ++ [⟨first, pos, transport, tracks, mark⟩]
  (all.drop (all.length - 16), if plays then some pos else before.2)

/-- From `s` to `t`, a link's status record took a block's header and trailer, and SERVER_STATUS was raised at all three
ports if that changed the health or the pull, and otherwise at none (R19, R159). -/
def StatusRecorded (l : LinkId) (b : FeedBlock) (s t : State) : Prop :=
  let x := s.link l
  let y := t.link l
  y.seq = b.header.seq ∧ y.tracks = b.header.tracks ∧ y.transport = b.header.transport ∧ y.health = b.health ∧
    y.pull = b.pull ∧ ∀ q, (t.port q).isRaised .serverStatus =
      (decide (x.health ≠ b.health ∨ x.pull ≠ b.pull) || (s.port q).isRaised .serverStatus)

/-- From `s` to `t`, the records of a block tagged `tag` were offered to a link's metadata queue: as many as it has room
for join it in order, and each further one is counted as dropped with METADATA_DROP at the link's server port and port C;
on link C they are ignored and counted (R20, R78). -/
def RecordsOffered (l : LinkId) (tag : FrameIndex) (records : List MetaRecord) (s t : State) : Prop :=
  let x := s.link l
  let y := t.link l
  if l = .C then
    y.queue = x.queue ∧ y.counters.dropped = x.counters.dropped ∧
      (x.counters.ignored ≤ 4294967295 →
        y.counters.ignored = min (x.counters.ignored + records.length) 4294967295)
  else
    let places := 64 - x.queue.length
    y.queue = x.queue ++ (records.map (Tagged.mk tag)).take places ∧ y.counters.ignored = x.counters.ignored ∧
      (x.counters.dropped ≤ 4294967295 →
        y.counters.dropped = min (x.counters.dropped + (records.length - places)) 4294967295) ∧
      (places < records.length →
        (t.port (serverPort l)).isRaised .metadataDrop = true ∧ (t.port .C).isRaised .metadataDrop = true)

/-- From `s` to `t`, the queue of a link that becomes the programme dropped the records at or below its read index, unless
that link is the closing programme, and the links did not change otherwise (R58, R62, R65). -/
def Pruned (x : ProgLink) (s t : State) : Prop :=
  let y := s.link (progLink x)
  let above : FrameIndex → Tagged → Bool := fun n r => decide (2147483648 ≤ (n - r.tag).toNat)
  (∀ l, l ≠ progLink x → t.link l = s.link l) ∧
    t.link (progLink x) =
      if s.closing = some x then y
      else
        match y.readPos with
        | none => y
        | some p => { y with queue := y.queue.filter (above p.index) }

/-! ### Show position -/

/-- The show position of a link's reader: that of the frame at its read index in a PLAY stamp, the stamp's own in a HOLD
one, none without a stamp (R111, R116). A slip made at an open block end falls in the block that begins and does not
move the index (R50; log 4). -/
def State.readerAt (x : ProgLink) (s : State) : Option ShowPos :=
  match (s.link (progLink x)).readPos with
  | none => none
  | some p =>
    let i : FrameIndex :=
      match (s.link (progLink x)).fresh with
      | .slip origin => if s.blockEndOpen = true then origin else p.index
      | _ => p.index
    ((s.link (progLink x)).stamps.find? fun σ => decide ((i - σ.first).toNat < 32)).map fun σ =>
      match σ.transport with
      | .hold => σ.pos
      | .play => ⟨σ.pos.reel, (σ.pos.lin + (i - σ.first).toNat) % 131072000⟩

/-- A LOCATE of the selector stands at the reader of link x: every match flag is cleared, the high-water mark is that
reader's show position, and no LOCATE waits any more (R116). -/
def Located (x : ProgLink) (t : State) : Prop :=
  (∀ c ∈ t.cueing.cues, c.matched = false) ∧ t.cueing.hwm = t.readerAt x ∧ t.cueing.locateHeld = false

/-! ### The selector's decision -/

/-- From `s` to `t`, the selector decided as ON(x) with a revert counter of `count` before it (R60, R61): with x fit the
counter is counted, and at 256 the programme reverts to the primary; with x unfit it fails over to the other link when that is
fit, through a LOCATE when it is not aligned, stays while x runs, and goes to IDLE otherwise. The alignment status that it
judges is this block end's. -/
def DecidedOn (x : ProgLink) (count : Nat) (s t : State) : Prop :=
  let aligned : Prop := t.sel.align = .aligned
  let announced : Prop := ∀ q, (t.port q).isRaised .programme = true
  if s.fit x = true then
    let n := if x ≠ s.sel.primary ∧ s.fit s.sel.primary = true ∧ t.sel.align = .aligned then min 256 (count + 1) else 0
    if n = 256 ∧ s.sel.autoRevert = true ∧ s.sel.manualHold = false then
      t.sel.cur = .crossfade (some x) s.sel.primary 1 ∧ t.sel.revert = 0 ∧ announced
    else t.sel.cur = .on x ∧ t.sel.revert = n
  else if s.fit (otherProg x) = true then
    (aligned → t.sel.cur = .crossfade (some x) (otherProg x) 1) ∧
      (¬ aligned → t.sel.cur = .crossfade none (otherProg x) 1 ∧ Located (otherProg x) t) ∧ t.sel.revert = 0 ∧ announced
  else if (s.link (progLink x)).running = true then t.sel.cur = .on x ∧ t.sel.revert = 0
  else t.sel.cur = .idle ∧ t.sel.revert = 0 ∧ announced

/-! ### The laws of the device -/

/-- Whenever a gain ramp's remaining count is 0, its current value equals its target (R76). -/
def Ramp.Lawful (x : Ramp) : Prop := x.remaining = 0 → x.current = x.target

/-- Every gain ramp of the part obeys the ramp law (R76). -/
def RampLaw (s : State) : Prop :=
  (∀ x ∈ s.scene.slots, x.ramp.Lawful) ∧ (∀ x ∈ s.scene.roomSlots, x.ramp.Lawful) ∧ s.room.programme.Lawful ∧
    s.room.master.Lawful ∧ ∀ b ∈ s.buses, b.mute.Lawful

/-- The overlay stack holds 0 to 8 entries (R131). -/
def OverlayLaw (s : State) : Prop := s.room.stack.length ≤ 8

/-- A list that a slot may hold: 1 to 8 entries with bus indices strictly ascending (R74), within 0..63. -/
def ListLaw (list : List Contribution) : Prop :=
  1 ≤ list.length ∧ list.length ≤ 8 ∧ (list.map Contribution.bus).Pairwise (· < ·) ∧ ∀ c ∈ list, c.bus ≤ 63

/-- A FREE slot has no list; any other slot's list obeys the list law (R73, R74). -/
def Slot.Lawful (x : Slot) : Prop := if x.state = .free then x.list = [] else ListLaw x.list

/-- A record as the receiver passes it on: a list, where it carries one, has 1 to 8 entries (R3, R6). -/
def MetaRecord.Lawful : MetaRecord → Prop
  | .slotSet _ _ _ _ list => 1 ≤ list.length ∧ list.length ≤ 8
  | .slotMove _ list => 1 ≤ list.length ∧ list.length ≤ 8
  | .slotGain _ _ _ => True
  | .slotRelease _ _ => True
  | .sceneRelease _ => True

/-- A metadata queue holds at most 64 records (R78), each as the receiver passes it on. -/
def Link.QueueLaw (x : Link) : Prop := x.queue.length ≤ 64 ∧ ∀ t ∈ x.queue, t.body.Lawful

/-- The free entries of the contribution pool plus the entries held by the programme slots total 512, every list obeys
the list law (R74), and the metadata queues obey theirs (R78). -/
def SceneLaw (s : State) : Prop :=
  s.scene.slots.length = 128 ∧ s.scene.free + entriesHeld s.scene.slots = 512 ∧ (∀ x ∈ s.scene.slots, x.Lawful) ∧
    s.linkA.QueueLaw ∧ s.linkB.QueueLaw

/-- The cue list holds 0 to 48 cues, no two with the same port and id, each id within 1..255 and each cue with at least
one match field enabled (R117). -/
def CueLaw (s : State) : Prop :=
  s.cueing.cues.length ≤ 48 ∧ (s.cueing.cues.map fun c => (c.port, c.id)).Nodup ∧
    ∀ c ∈ s.cueing.cues, 1 ≤ c.id ∧ c.id ≤ 255 ∧ (c.reel.isSome || c.frame.isSome || c.offset.isSome) = true

/-- A waiting request and a held response are never held together (R153); an answer that still follows the open block
end is a held response's. -/
def Port.Lawful (x : Port) : Prop := x.waiting.isSome = true → x.response = none ∧ x.live = none

/-- Every port engine obeys its law (R153). -/
def EngineLaw (s : State) : Prop := s.portA.Lawful ∧ s.portB.Lawful ∧ s.portC.Lawful

/-- While the tick runs, house samples fall every 512 ticks and block ends every 16,384, and an open block end stands at
its own instant (R169; log 4). -/
def TimeLaw (s : State) : Prop :=
  s.ticking = true →
    s.samplesDone ≤ 32 ∧
      (s.tick - (BitVec.ofNat 32 (16384 * s.blockCount.toNat + 512 * s.samplesDone))).toNat
        < (if s.samplesDone = 32 ∨ s.blockEndOpen = true then 1 else 512) ∧
      (s.blockEndOpen = true → s.samplesDone = 0)

/-- A value lies within the step's range (R34). -/
def InStepRange (v : Int) : Prop := -167772 ≤ v ∧ v ≤ 167772

/-- A link's tracker and read position (R26, R34): the offsets lie within the step's range; exactly a running link has a
read position; and that position has not passed the newest written frame and lies at most 240 frames behind. -/
def Link.TrackLaw (x : Link) : Prop :=
  InStepRange x.target ∧ InStepRange x.applied ∧ InStepRange x.taken ∧ (x.running = x.readPos.isSome) ∧
    ∀ p, x.readPos = some p → 1 ≤ x.fill ∧ x.fill ≤ 240 ∧ p.frac < 16777216

/-- Every link obeys the laws of R26 and R34. -/
def TrackLaw (s : State) : Prop := s.linkA.TrackLaw ∧ s.linkB.TrackLaw ∧ s.linkC.TrackLaw

/-- Each bus's delays lie within 0..2,047 and its slew wait within 0..7 (R139, R147). -/
def DelayLaw (s : State) : Prop :=
  ∀ b ∈ s.buses, b.computed ≤ 2047 ∧ b.applied ≤ 2047 ∧ b.wait ≤ 7 ∧ b.inDelay ≤ 2047

/-- A value is a 24-bit sample (00_scope.md section 1.6). -/
def IsSample (v : Int) : Prop := -8388608 ≤ v ∧ v ≤ 8388607

/-- What leaves the part and what the meters hold stays within its word (R104, R141, R149). -/
def OutputLaw (s : State) : Prop :=
  (∀ v ∈ s.outFrame, IsSample v) ∧ (∀ b ∈ s.buses, (∀ v ∈ b.line, IsSample v) ∧ b.clips ≤ 65535) ∧
    ∀ q, ∀ peak ∈ (s.port q).peaks, peak ≤ 8388608

end Sys2Proof.Machine
end

