-- ==== Sys2Proof/Certificates/Slice0/Obligations.lean ====
section
/-! DEFINITION. The statements for the provers. Each says what a command or the machine does, by the rules it cites. -/

open Sys2Proof Sys2Proof.Machine

/-! ### Steps, reset and the laws -/

/-- A step takes the command at the front of the queue and has its effect with the queue's rest (log 1). -/
def Obligations.StepTakesFrontCommand : Prop :=
  ∀ (c : Instr) (rest : List Instr) (s : State), s.pending = c :: rest → step s = exec c { s with pending := rest }

/-- With nothing waiting, one master tick passes, but not past the tick before the next house sample; and none in RESET
or without power. An open block end is an instant, so the tick closes it first (log 1, log 2, log 4). -/
def Obligations.IdleStepPassesATick : Prop :=
  (∀ s : State, s.pending = [] → s.blockEndOpen = false →
    step s = .next
      { s with
        tick := if s.ticking = true ∧ s.samplesDone < 32 ∧ s.tick.toNat % 512 < 511 then s.tick + 1 else s.tick }) ∧
  ∀ s : State, s.pending = [] → s.blockEndOpen = true →
    step s = .next
      (if s.ticking = true ∧ s.samplesDone < 32 ∧ s.tick.toNat % 512 < 511 then
        let u := s.closeBlockEnd
        { u with
          tick := if u.ticking = true ∧ u.samplesDone < 32 ∧ u.tick.toNat % 512 < 511 then u.tick + 1 else u.tick }
      else s)

/-- The state right after power-on: in RESET, every block in its reset condition, with the settings at the defaults of the
store (R24, R43, R54, R95, R104, R126, R138, R139, R156, R158, R170, R173). That this state stands just after power-on
is the model's choice (log 28); its fields that no rule gives a reset value are not spoken of (log 27). -/
def Obligations.ResetState : Prop :=
  State.reset.startup = .reset ∧ State.reset.tick = 0 ∧ State.reset.blockCount = 0 ∧
    (∀ l, let x := State.reset.link l
      x.state = .search ∧ x.phase = .hunt ∧ x.run = 0 ∧ x.seq = 0 ∧ x.tracks = 0 ∧ x.transport = .hold ∧
      x.health = .ok ∧ x.pull = .unpulled ∧ x.gapDeadline = none ∧ x.holdDeadline = none ∧
      x.ring = List.replicate 256 (List.replicate (if l = .C then 8 else 112) 0) ∧ x.written = 0 ∧ x.held = 0 ∧
      x.stamps = [] ∧ x.history = [] ∧ x.queue = [] ∧ x.contRef = none ∧ x.measuredOffset = 0 ∧ x.measured = false ∧
      x.target = 0 ∧ x.applied = 0 ∧ x.readPos = none ∧ x.departing = none ∧ x.fadeIn = false ∧
      x.counters = ⟨0, 0, 0, 0, 0, 0, [0, 0, 0, 0, 0, 0, 0], 0, 0⟩) ∧
    State.reset.sel.cur = .idle ∧ State.reset.sel.primary = .A ∧ State.reset.sel.autoRevert = true ∧
    State.reset.sel.manualHold = false ∧ State.reset.sel.align = .notReady ∧ State.reset.sel.revert = 0 ∧
    State.reset.scene = ⟨List.replicate 128 ⟨.free, 0, ⟨0, 0, 0, false⟩, []⟩, 512,
      List.replicate 8 ⟨false, 0, ⟨0, 0, 0, false⟩, []⟩⟩ ∧
    State.reset.room = ⟨⟨32768, 32768, 0, false⟩, ⟨32768, 32768, 0, false⟩, [false, false, false, false], []⟩ ∧
    State.reset.airTemp = 20 ∧ State.reset.members = [0, 0, 0, 0] ∧ State.reset.buses.length = 64 ∧
    (∀ b ∈ State.reset.buses,
      b.trim = 32768 ∧ b.distance = 0 ∧ b.mute = ⟨32768, 32768, 0, false⟩ ∧ b.computed = 0 ∧ b.limit = false ∧
      b.applied = 0 ∧ b.wait = 0 ∧ b.line = List.replicate 2048 0 ∧ b.overload = 0 ∧ b.clips = 0) ∧
    State.reset.cueing.cues = [] ∧ State.reset.cueing.start = none ∧ State.reset.cueing.hwm = none ∧
    (∀ p, let x := State.reset.port p
      x.waiting = none ∧ x.response = none ∧ x.refusal = none ∧ x.raised = 0 ∧ x.mask = 0 ∧ x.enable = false ∧
      x.log = [] ∧ x.cuesRefused = 0 ∧ x.peaks = List.replicate 64 0) ∧
    State.reset.ref.everLocked = false ∧ State.reset.ref.qual = 0 ∧ State.reset.ref.missing = 0 ∧
    State.reset.store.writing = none ∧ State.reset.store.result = .untried ∧ State.reset.store.valid = false

/-- The reset state obeys every law of the device. -/
def Obligations.ResetMeetsTheLaws : Prop :=
  RampLaw State.reset ∧ OverlayLaw State.reset ∧ SceneLaw State.reset ∧ CueLaw State.reset ∧ EngineLaw State.reset ∧
    TimeLaw State.reset ∧ TrackLaw State.reset ∧ DelayLaw State.reset ∧ OutputLaw State.reset

/-- Every step keeps: a gain ramp whose remaining count is 0 stands at its target. -/
def Obligations.RampLawKept : Prop := KeptByEveryStep RampLaw

/-- Every step keeps: the overlay stack holds at most 8 entries. -/
def Obligations.OverlayLawKept : Prop := KeptByEveryStep OverlayLaw

/-- Every step keeps: pool entries total 512, lists have 1 to 8 strictly ascending buses, and a metadata queue holds at
most 64 records, each with a list of 1 to 8 where its kind has one. That tags do not decrease (R78) is not claimed. -/
def Obligations.SceneLawKept : Prop := KeptByEveryStep SceneLaw

/-- Every step keeps: at most 48 cues, each port's ids unique and within 1..255. -/
def Obligations.CueLawKept : Prop := KeptByEveryStep CueLaw

/-- Every step keeps: no port engine holds a waiting request and a held response together. -/
def Obligations.EngineLawKept : Prop := KeptByEveryStep EngineLaw

/-- Every step keeps: 512 ticks to a house sample and 16,384 to a block, counted by the house block count; an open block
end stands at its own instant (log 4). -/
def Obligations.TimeLawKept : Prop := KeptByEveryStep TimeLaw

/-- Every step keeps: the step's range, and the read position's place behind the newest written frame. -/
def Obligations.TrackLawKept : Prop := KeptByEveryStep TrackLaw

/-- Every step keeps: computed and applied delays within 0..2,047. -/
def Obligations.DelayLawKept : Prop := KeptByEveryStep DelayLaw

/-- Every step keeps: every output sample, every value in a delay line and every peak within its word. -/
def Obligations.OutputLawKept : Prop := KeptByEveryStep OutputLaw

/-! ### Arithmetic -/

/-- A fade weight scales a value by thirty-seconds: 32 leaves it, 0 silences it, and the faded value lies between 0 and
the value (R49). -/
def Obligations.FadeArithmetic : Prop :=
  (∀ (w : Nat) (x : Int), fadeBy w x = (x * (w : Int) + 16) / 32) ∧ (∀ x : Int, fadeBy 32 x = x) ∧
    (∀ x : Int, fadeBy 0 x = 0) ∧
    ∀ (w : Nat) (x : Int), w ≤ 32 → (0 ≤ x → 0 ≤ fadeBy w x ∧ fadeBy w x ≤ x) ∧ (x ≤ 0 → x ≤ fadeBy w x ∧ fadeBy w x ≤ 0)

/-- The effective gains of a programme slot's contributions and of a room slot's, their ranges and their unities; the
first house sample after a block end fixes those of every slot, and the block's later house samples keep them; and the
term that each contribution adds (R98, R99). That the values are fixed just before the block's first house sample is the
model's keeping of the block end (log 4). -/
def Obligations.EffectiveGains : Prop :=
  (∀ (level : Nat) (x : Slot), x.terms level = if x.state = .free then [] else x.list.map fun c =>
      ⟨.programme x.track, c.bus,
        ((x.ramp.current * c.weight + 16384) / 32768 * level + 16384) / 32768⟩) ∧
    (∀ x : RoomSlot, x.terms = if x.active = true then x.list.map fun c =>
      ⟨.aux x.track, c.bus, (x.ramp.current * c.weight + 16384) / 32768⟩ else []) ∧
    (∀ g w : Nat, g ≤ 65535 → w ≤ 32768 → gainProduct g w ≤ 65535) ∧ (∀ g : Nat, gainProduct g 32768 = g) ∧
    (∀ w : Nat, gainProduct 32768 w = w) ∧
    (∀ s t : State, s.startup = .run → (∀ p, (s.port p).due = false) → exec .houseSample s = .next t →
      t.mixTerms = if s.blockEndOpen = true then
        s.scene.slots.flatMap (Slot.terms s.room.programme.current) ++ s.scene.roomSlots.flatMap RoomSlot.terms
      else s.mixTerms) ∧
    ∀ (programme aux : List Int) (bus track gain : Nat),
      MixTerm.part programme aux bus ⟨.programme track, bus, gain⟩ = programme.getD track 0 * (gain : Int) ∧
        MixTerm.part programme aux bus ⟨.aux track, bus, gain⟩ = aux.getD track 0 * (gain : Int)

/-- A running ramp reaches its target in as many steps as its remaining count says, and no step leaves the range between
the current value and the target (R76). -/
def Obligations.RampReachesTarget : Prop :=
  ∀ x : Ramp, x.changed = false → x.Lawful →
    (Ramp.step^[x.remaining] x).current = x.target ∧ (Ramp.step^[x.remaining] x).remaining = 0 ∧
      (Ramp.step x).target = x.target ∧ min x.current x.target ≤ (Ramp.step x).current ∧
      (Ramp.step x).current ≤ max x.current x.target

/-- The slew of an applied delay, and what the close of a block end makes of a bus. Whatever the computed delay becomes
between them, 8 consecutive slews move the applied delay by at most one sample; with one computed delay they move it
towards that. The close of a block end in RUN at which nothing more is due computes the delays afresh when a temperature
or distance was taken, slews every bus once, retargets its mute factor, and fixes trim, effective master level and
applied delay for the block (R140, R144 to R147). That the close is the moment of fixing is the model's choice
(log 4). -/
def Obligations.SlewMovesOnceInEight : Prop :=
  (∀ b : Bus, Bus.slew b =
    if 0 < b.wait then { b with wait := b.wait - 1 }
    else if b.applied < b.computed then { b with applied := b.applied + 1, wait := 7 }
    else if b.computed < b.applied then { b with applied := b.applied - 1, wait := 7 }
    else b) ∧
  (∀ (b : Bus) (ds : List Nat), ds.length ≤ 8 → b.wait ≤ 7 → b.applied ≤ 2047 → (∀ d ∈ ds, d ≤ 2047) →
    let x := ds.foldl (fun (b : Bus) d => Bus.slew { b with computed := d }) b
    (x.applied = b.applied ∨ x.applied = b.applied + 1 ∨ x.applied + 1 = b.applied) ∧ x.applied ≤ 2047 ∧ x.wait ≤ 7) ∧
  (∀ b : Bus, b.wait ≤ 7 → b.applied ≤ 2047 → b.computed ≤ 2047 → ∀ n, n ≤ 8 →
    min b.applied b.computed ≤ (Bus.slew^[n] b).applied ∧ (Bus.slew^[n] b).applied ≤ max b.applied b.computed) ∧
  ∀ s : State, s.startup = .run → s.blockEndOpen = true → (∀ p, (s.port p).due = false) →
    let t := s.closeBlockEnd
    let c := (331300 + 606 * s.airTemp).toNat
    let flight : Bus → Nat := fun b => (b.distance * 48000 + c / 2) / c
    let far := (s.buses.map flight).foldl max 0
    t.delayDirty = false ∧ t.buses.length = s.buses.length ∧
    ∀ i, i < s.buses.length →
      let b := s.buses.getD i Bus.reset
      let d : Bus :=
        if s.delayDirty = true then
          { b with computed := min 2047 (far - flight b), limit := decide (2047 < far - flight b) }
        else b
      ∃ held : Bool,
        (held = true ↔ ∃ g, s.room.groups.getD g false = true ∧ (s.members.getD g 0).getLsbD i = true) ∧
        t.buses.getD i Bus.reset =
          { Bus.slew d with
            mute := if (if held then 0 else 32768) = b.mute.target then { b.mute with changed := false }
              else ⟨b.mute.current, if held then 0 else 32768, 4, false⟩,
            inTrim := b.trim, inMeff := (s.room.master.current * b.mute.current + 16384) / 32768,
            inDelay := (Bus.slew d).applied }

/-- A well-formed request frame is read back as the request it carries, so that the checks judge exactly that request
(R152, R164). -/
def Obligations.RequestFramesReadBack : Prop :=
  ∀ (p : PortId) (r : Request), r.wf = true → checkFrame p (requestFrame r) = checkRequest p r

/-! ### Feed links -/

/-- A START in RUN begins a block with the present tick as its capture; a block in assembly is malformed and counted,
and takes an ACQUIRE link to SEARCH; a DISABLED link reads nothing; before RUN a START begins no block (R1, R5, R7). The
ticks that pass before it stop short of the next house sample (log 2) and close an open block end (log 4) by the model's
choice. -/
def Obligations.StartSymbolBeginsABlock : Prop :=
  (∀ (l : LinkId) (ticks : Nat) (s : State), s.startup = .run → s.blockEndOpen = false ∨ ticks = 0 →
    Completes (.startSymbol l ticks) s fun t =>
      t.tick = s.tick + BitVec.ofNat 32 (min ticks (if s.samplesDone < 32 then 511 - s.tick.toNat % 512 else 0)) ∧
      match (s.link l).phase with
      | .off => t = { s with tick := t.tick }
      | .hunt => t = { s with tick := t.tick }.setLink l { s.link l with phase := .assemble t.tick [] }
      | .assemble _ _ =>
        (t.link l).phase = .assemble t.tick [] ∧
        (t.link l).counters =
          { (s.link l).counters with malformed := min ((s.link l).counters.malformed + 1) 4294967295 } ∧
        if (s.link l).state = .acquire then
          (t.link l).state = .search ∧ EmptiedLink (s.link l) (t.link l) ∧ RaisedAtAll .linkState s t
        else
          t = { s with tick := t.tick }.setLink l
            { s.link l with phase := .assemble t.tick [], counters := (t.link l).counters }) ∧
  (∀ (l : LinkId) (ticks : Nat) (s : State), s.startup ≠ .run → s.blockEndOpen = false ∨ ticks = 0 →
    exec (.startSymbol l ticks) s = .next
      { s with
        tick := s.tick + BitVec.ofNat 32
          (min ticks (if s.startup = .loading ∧ s.samplesDone < 32 then 511 - s.tick.toNat % 512 else 0)) }) ∧
  ∀ (l : LinkId) (ticks : Nat) (s : State), s.ticking = true → s.samplesDone < 32 → s.tick.toNat % 512 < 511 →
    0 < ticks → exec (.startSymbol l ticks) s = exec (.startSymbol l ticks) s.closeBlockEnd

/-- A valid block in SEARCH begins an acquisition run: ACQUIRE, run count 1, the block written with its stamp, its
capture first in the history, its records offered to the queue, where a record that finds 64 is dropped and counted with
METADATA_DROP (ignored and counted on link C), its header and trailer in the status record, with SERVER_STATUS when health
or pull change, and the gap timer set (R10, R11, R16, R19, R20). Its stamp carries the locate mark of R112. In ACQUIRE a step other than 1, or a rate
fault, restarts the run with this block, and a block in step extends it; an accepted measurement from the ninth block on
locks the link 128 frames behind the newest frame with the applied offset at the target (R12, R29 to R31, R36). How the
records re-enter after a rate fault is the model's reading (log 9), as is that link C's are counted when the block is
handed on (log 36). -/
def Obligations.FeedBlockBeginsARun : Prop :=
  (∀ (l : LinkId) (symbols : List Symbol) (s : State) (capture : Tick) (got bytes : List Byte) (b : FeedBlock),
    s.startup = .run → (s.link l).phase = .assemble capture got → assemble l got symbols = (.ok b, bytes) →
    (s.link l).state = .search →
    Completes (.feedBlock l symbols) s fun t =>
      (t.link l).state = .acquire ∧ (t.link l).run = 1 ∧ (t.link l).phase = .hunt ∧
      BlockWritten b.frames (s.link l) (t.link l) ∧
      (t.link l).history = keepLast 9 ((s.link l).history ++ [⟨b.header.seq, capture⟩]) ∧
      (t.link l).gapDeadline = some (capture + 49152) ∧ (t.link l).readPos = (s.link l).readPos ∧
      StatusRecorded l b s t ∧
      (t.link l).counters.valid = min ((s.link l).counters.valid + 1) 4294967295 ∧
      ((t.link l).stamps, (t.link l).contRef) = stampEnters l ((s.link l).stamps, (s.link l).contRef)
        ((s.link l).written, b.header.pos, b.header.transport, b.header.tracks) ∧
      RecordsOffered l (s.link l).written b.records s t ∧
      ∀ q, (t.port q).isRaised .linkState = true) ∧
  ∀ (l : LinkId) (symbols : List Symbol) (s : State) (capture : Tick) (got bytes : List Byte) (b : FeedBlock),
    s.startup = .run → (s.link l).phase = .assemble capture got → assemble l got symbols = (.ok b, bytes) →
    (s.link l).state = .acquire →
    Completes (.feedBlock l symbols) s fun t =>
      let x := s.link l
      let y := t.link l
      let history := keepLast 9 (x.history ++ [⟨b.header.seq, capture⟩])
      let interval := (history.find? fun e => decide (e.seq = b.header.seq - 8)).map fun e =>
        (capture - e.capture).toNat
      let restarted : Prop :=
        y.state = .acquire ∧ y.run = 1 ∧ y.history = [⟨b.header.seq, capture⟩] ∧
        y.stamps = [⟨x.written, b.header.pos, b.header.transport, b.header.tracks, false⟩] ∧
        (y.stamps, y.contRef) =
          stampEnters l ([], none) (x.written, b.header.pos, b.header.transport, b.header.tracks) ∧
        y.queue = (if l = .C then [] else (b.records.map (Tagged.mk x.written)).take 64)
      let entered : Prop := (y.stamps, y.contRef) = stampEnters l (x.stamps, x.contRef)
        (x.written, b.header.pos, b.header.transport, b.header.tracks)
      BlockWritten b.frames x y ∧ StatusRecorded l b s t ∧
      y.gapDeadline = some (capture + 49152) ∧ y.phase = .hunt ∧
      y.counters.valid = min (x.counters.valid + 1) 4294967295 ∧
      if b.header.seq ≠ x.seq + 1 then
        restarted ∧ y.measuredOffset = x.measuredOffset ∧ y.readPos = x.readPos ∧
          y.counters.rateFaults = x.counters.rateFaults
      else
        match interval with
        | none =>
          RecordsOffered l x.written b.records s t ∧ entered ∧ y.state = .acquire ∧ y.run = x.run + 1 ∧ y.history = history ∧
            y.measuredOffset = x.measuredOffset ∧ y.readPos = x.readPos ∧ y.counters.rateFaults = x.counters.rateFaults
        | some d =>
          if 129761 ≤ d ∧ d ≤ 132383 then
            RecordsOffered l x.written b.records s t ∧ entered ∧ y.measuredOffset = ((2199023255552 + d / 2) / d : Nat) - 16777216 ∧ y.measured = true ∧
            y.history = history ∧ y.counters.rateFaults = x.counters.rateFaults ∧
            if 9 ≤ x.run + 1 then
              y.state = .locked ∧ y.run = 0 ∧ y.readPos = some ⟨x.written + 32 - 128, 0⟩ ∧ y.fresh = .lock ∧
              y.target = max (-167772) (min 167772 y.measuredOffset) ∧ y.applied = y.target ∧ y.departing = none ∧
              y.fadeIn = false ∧ ∀ q, (t.port q).isRaised .linkState = true
            else y.state = .acquire ∧ y.run = x.run + 1 ∧ y.readPos = x.readPos
          else
            restarted ∧ y.measuredOffset = x.measuredOffset ∧ y.readPos = x.readPos ∧
              y.counters.rateFaults = min (x.counters.rateFaults + 1) 4294967295

/-- Symbols that do not end a block leave it in assembly with the bytes read; a malformed block is dropped and counted
and changes nothing else, but takes an ACQUIRE link to SEARCH; in HUNT, and on a DISABLED link, symbols are ignored
(R1, R6, R7). A block laid out as R165 and R166 say is read as the block it carries when every test of R6 passes, and is
malformed when any fails; so is a block with another marker, and a record of another kind or of another length than its
kind requires (R2 to R4), with the block check formed bit by bit. Data symbols add their bytes to those read so far, and the block is what these are read as; an
IDLE or undecodable symbol makes a block malformed that is not yet read to its end or found malformed before it; and what
a block is found to be stands whatever follows (R1, R6). Outside RUN no symbols are read (R24). That symbols come in groups is the model's choice (log 8). -/
def Obligations.FeedBlockMalformedOrUnfinished : Prop :=
  (∀ (l : LinkId) (symbols : List Symbol) (s : State), s.startup = .run →
    Completes (.feedBlock l symbols) s fun t =>
      match (s.link l).phase with
      | .off => t = s
      | .hunt => t = s
      | .assemble capture got =>
        match assemble l got symbols with
        | (.more, bytes) => t = s.setLink l { s.link l with phase := .assemble capture bytes }
        | (.ok _, _) => (t.link l).phase = .hunt
        | (.bad, _) =>
          (t.link l).phase = .hunt ∧
          (t.link l).counters =
            { (s.link l).counters with malformed := min ((s.link l).counters.malformed + 1) 4294967295 } ∧
          if (s.link l).state = .acquire then
            (t.link l).state = .search ∧ EmptiedLink (s.link l) (t.link l) ∧ RaisedAtAll .linkState s t
          else t = s.setLink l { s.link l with phase := .hunt, counters := (t.link l).counters }) ∧
  (∀ (l : LinkId) (seq transport reel tracks status1 status0 : Byte) (frame offset : BitVec 16) (audio : List Byte)
    (records : List MetaRecord) (check : BitVec 16),
    records.length < 256 → (∀ r ∈ records, Carried r) → audio.length = 96 * tracks.toNat →
    let width : Nat := if l = .C then 8 else 112
    let body := [if l = .C then 0xE8 else 0xE7, seq, transport, reel] ++ wire 2 frame.toNat ++ wire 2 offset.toNat ++
      [tracks] ++ wire 1 records.length ++ audio ++ records.flatMap wireRecord ++ [status1, status0]
    let sample : Nat → Nat → Int := fun f t =>
      let at_ := 3 * (f * tracks.toNat + t)
      let n := (audio.getD at_ 0).toNat * 65536 + (audio.getD (at_ + 1) 0).toNat * 256 + (audio.getD (at_ + 2) 0).toNat
      if n < 8388608 then (n : Int) else (n : Int) - 16777216
    let passes : Prop :=
      (transport.toNat % 4 = 1 ∨ transport.toNat % 4 = 2) ∧ 1 ≤ reel.toNat ∧ reel.toNat ≤ 15 ∧ offset.toNat ≤ 1999 ∧
        1 ≤ tracks.toNat ∧ tracks.toNat ≤ width ∧ records.length ≤ 16 ∧ (∀ r ∈ records, r.Lawful) ∧
        status0.toNat % 4 ≠ 3 ∧ status0.toNat / 4 % 4 ≠ 3 ∧ crc16 body = check
    (passes → parseBlock l (body ++ wire 2 check.toNat) = .ok {
      header := ⟨seq, if transport.toNat % 4 = 1 then .play else .hold,
        ⟨reel.toNat, frame.toNat * 2000 + offset.toNat⟩, tracks.toNat, records.length⟩
      frames := (List.range 32).map fun f => (List.range width).map fun t => if t < tracks.toNat then sample f t else 0
      records := records
      health := match status0.toNat % 4 with | 0 => .ok | 1 => .degraded | _ => .fault
      pull := match status0.toNat / 4 % 4 with | 0 => .unpulled | 1 => .down | _ => .up }) ∧
    (¬ passes → parseBlock l (body ++ wire 2 check.toNat) = .bad)) ∧
  (∀ (l : LinkId) (m : Byte) (rest : List Byte), m ≠ (if l = .C then 0xE8 else 0xE7) → parseBlock l (m :: rest) = .bad) ∧
  (∀ (kind : Byte) (rest : List Byte), kind.toNat = 0 ∨ 5 < kind.toNat → parseRecord (kind :: rest) = .bad) ∧
  (∀ (kind len : Byte) (rest : List Byte), (kind = 2 ∧ len ≠ 4) ∨ (kind = 4 ∧ len ≠ 2) ∨ (kind = 5 ∧ len ≠ 1) →
    parseRecord (kind :: len :: rest) = .bad) ∧
  (∀ (len slot track gain1 gain0 ramp n : Byte) (rest : List Byte), len.toNat ≠ 6 + 3 * n.toNat →
    parseRecord (1 :: len :: slot :: track :: gain1 :: gain0 :: ramp :: n :: rest) = .bad) ∧
  (∀ (len slot n : Byte) (rest : List Byte), len.toNat ≠ 2 + 3 * n.toNat →
    parseRecord (3 :: len :: slot :: n :: rest) = .bad) ∧
  (∀ (l : LinkId) (got bytes : List Byte),
    assemble l got (bytes.map .data) = (parseBlock l (got ++ bytes), got ++ bytes)) ∧
  (∀ (l : LinkId) (got bytes : List Byte) (broken : Symbol) (rest : List Symbol),
    broken = .idle ∨ broken = .undecodable →
    let (found, read) := assemble l got (bytes.map .data ++ broken :: rest)
    read = got ++ bytes ∧ (parseBlock l (got ++ bytes) = .more → found = .bad) ∧
      (parseBlock l (got ++ bytes) ≠ .more → found = parseBlock l (got ++ bytes))) ∧
  (∀ (l : LinkId) (bytes rest : List Byte), parseBlock l bytes ≠ .more →
    parseBlock l (bytes ++ rest) = parseBlock l bytes) ∧
  (∀ bytes : List Byte, crc16 bytes = wireCheck bytes) ∧
  ∀ (l : LinkId) (symbols : List Symbol) (s : State), s.startup ≠ .run → exec (.feedBlock l symbols) s = .next s

/-- A block in step on a LOCKED link, or on a HOLDOVER link, which it returns to LOCKED with LINK_STATE and without its
holdover timer: its frames are written at the next indices, its stamp enters with the locate mark of R112, its header and
trailer reach the status record, with SERVER_STATUS when health or pull change; it is measured against the entry eight sequence numbers back, checked for a
slip, and its target and applied offset formed from the fill as it stands after any slip; its records are offered to the
queue (R10, R13, R14, R17, R19, R20, R30 to R34, R37, R78). A slip of a position that is being read makes it the departing one, at
the level it is heard at and over the samples left of the block; a slip of a fresh position leaves what departs as it is;
either ends a fade-in (R38, R50, R52). A slip keeps the index it left by the model's reading of where a slip falls
(log 4). -/
def Obligations.FeedBlockInStepWhenLocked : Prop :=
  ∀ (l : LinkId) (symbols : List Symbol) (s : State) (capture : Tick) (got bytes : List Byte) (b : FeedBlock)
    (p : ReadPos),
    s.startup = .run → (s.link l).phase = .assemble capture got → assemble l got symbols = (.ok b, bytes) →
    (s.link l).state = .locked ∨ (s.link l).state = .holdover → (s.link l).readPos = some p → b.header.seq = (s.link l).seq + 1 →
    Completes (.feedBlock l symbols) s fun t =>
      let fill := ((s.link l).written + 32 - p.index).toNat
      let history := keepLast 9 ((s.link l).history ++ [⟨b.header.seq, capture⟩])
      let interval := (history.find? fun e => decide (e.seq = b.header.seq - 8)).map fun e =>
        (capture - e.capture).toNat
      ((s.link l).state = .holdover →
        (t.link l).holdDeadline = none ∧ ∀ q, (t.port q).isRaised .linkState = true) ∧
      (t.link l).state = .locked ∧ BlockWritten b.frames (s.link l) (t.link l) ∧ (t.link l).history = history ∧
      ((t.link l).stamps, (t.link l).contRef) = stampEnters l ((s.link l).stamps, (s.link l).contRef)
        ((s.link l).written, b.header.pos, b.header.transport, b.header.tracks) ∧
      StatusRecorded l b s t ∧
      (t.link l).gapDeadline = some (capture + 49152) ∧ RecordsOffered l (s.link l).written b.records s t ∧
      (match interval with
        | none => (t.link l).measuredOffset = (s.link l).measuredOffset ∧
          (t.link l).counters.rateFaults = (s.link l).counters.rateFaults
        | some d =>
          if 129761 ≤ d ∧ d ≤ 132383 then
            (t.link l).measuredOffset = ((2199023255552 + d / 2) / d : Nat) - 16777216 ∧
              (t.link l).measured = true ∧ (t.link l).counters.rateFaults = (s.link l).counters.rateFaults
          else
            (t.link l).measuredOffset = (s.link l).measuredOffset ∧
              (t.link l).counters.rateFaults = min ((s.link l).counters.rateFaults + 1) 4294967295) ∧
      (if 48 ≤ fill ∧ fill ≤ 208 then
        (t.link l).readPos = some p ∧ (t.link l).fresh = (s.link l).fresh ∧
          (t.link l).departing = (s.link l).departing ∧ (t.link l).fadeIn = (s.link l).fadeIn ∧
          (t.link l).counters.slips = (s.link l).counters.slips ∧
          (t.link l).target = max (-167772) (min 167772
            ((t.link l).measuredOffset + 8 * max (-64) (min 64 ((fill : Int) - 128))))
      else
        (t.link l).readPos = some ⟨(s.link l).written + 32 - 128, 0⟩ ∧ (t.link l).fadeIn = false ∧
          (match (s.link l).fresh with
            | .no =>
              (t.link l).fresh = .slip p.index ∧ (t.link l).departing =
                some ⟨p, if (s.link l).fadeIn = true then s.samplesDone else 32, 32 - s.samplesDone, 0⟩
            | .lock => (t.link l).fresh = .slip p.index ∧ (t.link l).departing = (s.link l).departing
            | .slip origin => (t.link l).fresh = .slip origin ∧ (t.link l).departing = (s.link l).departing) ∧
          (t.link l).counters.slips = min ((s.link l).counters.slips + 1) 4294967295 ∧
          (t.port .C).isRaised .slip = true ∧ (t.port (serverPort l)).isRaised .slip = true ∧
          (t.link l).target = max (-167772) (min 167772 (t.link l).measuredOffset)) ∧
      (t.link l).applied = (s.link l).applied + ((t.link l).target - (s.link l).applied).tdiv 4

/-- A block on a LOCKED or HOLDOVER link whose step is not 1: a gap of one or two blocks is concealed and counted and the
link is LOCKED; any other step is discarded and takes the link to SEARCH (R13 to R15, R18). A concealed block is 32 frames
of 0 with the stamp that continues the last one by 32; the block before the gap is faded out above the reader's reach,
and the block that closes it is faded in and has its records offered to the queue (R15, R20, R27, R39). Every stamp enters with the locate mark of R112, and the
status record takes the header and trailer of the block that closes the gap, with SERVER_STATUS when health or pull
change (R19). That the records of a link C block discarded for its step are not counted is the model's reading
(log 36). -/
def Obligations.FeedBlockAcrossAGap : Prop :=
  ∀ (l : LinkId) (symbols : List Symbol) (s : State) (capture : Tick) (got bytes : List Byte) (b : FeedBlock),
    s.startup = .run → (s.link l).phase = .assemble capture got → assemble l got symbols = (.ok b, bytes) →
    (s.link l).state = .locked ∨ (s.link l).state = .holdover → b.header.seq ≠ (s.link l).seq + 1 →
    Completes (.feedBlock l symbols) s fun t =>
      if b.header.seq = (s.link l).seq + 2 ∨ b.header.seq = (s.link l).seq + 3 then
        (t.link l).state = .locked ∧ StatusRecorded l b s t ∧
          (t.link l).written = (s.link l).written + 32 * (b.header.seq - (s.link l).seq).setWidth 32 ∧
          ((s.link l).counters.concealed ≤ 4294967295 → (t.link l).counters.concealed =
            min ((s.link l).counters.concealed + ((b.header.seq - (s.link l).seq).toNat - 1)) 4294967295) ∧
          (t.link l).gapDeadline = some (capture + 49152) ∧
          RecordsOffered l ((t.link l).written - 32) b.records s t ∧
          ((s.link l).state = .holdover →
            (t.link l).holdDeadline = none ∧ ∀ q, (t.port q).isRaised .linkState = true) ∧
          ∀ (p : ReadPos) (σ : Stamp), (s.link l).readPos = some p → (s.link l).stamps.getLast? = some σ →
            (s.link l).ring.length = 256 → b.frames.length = 32 →
            let x := s.link l
            let y := t.link l
            let g := (b.header.seq - x.seq).toNat - 1
            let shape : Stamp → FrameIndex × ShowPos × Transport × Nat := fun σ => (σ.first, σ.pos, σ.transport, σ.tracks)
            let entering : List (FrameIndex × ShowPos × Transport × Nat) :=
              ((List.range g).map fun k => (x.written + BitVec.ofNat 32 (32 * k),
                ⟨σ.pos.reel, (σ.pos.lin + 32 * (k + 1)) % 131072000⟩, σ.transport, σ.tracks)) ++
              [(x.written + BitVec.ofNat 32 (32 * g), b.header.pos, b.header.transport, b.header.tracks)]
            y.stamps.map shape = keepLast 16 (x.stamps.map shape ++ entering) ∧
            (y.stamps, y.contRef) = entering.foldl (stampEnters l) (x.stamps, x.contRef) ∧
            y.held = min 256 (x.held + 32 * (g + 1)) ∧
            (∀ i : FrameIndex, 32 * (g + 2) ≤ (i - (x.written - 32)).toNat % 256 → y.frame i = x.frame i) ∧
            (∀ i, i < 32 * g →
              y.frame (x.written + BitVec.ofNat 32 i) = List.replicate (if l = .C then 8 else 112) 0) ∧
            (∀ f, f < 32 → y.frame (x.written + BitVec.ofNat 32 (32 * g + f)) =
              (b.frames.getD f []).map fun v => (v * ((f : Int) + 1) + 16) / 32) ∧
            ∀ f, f < 32 →
              let i := x.written - 32 + BitVec.ofNat 32 f
              y.frame i =
                if 1 ≤ (i - (p.index + 2)).toNat ∧ (i - (p.index + 2)).toNat < 2147483648 then
                  (x.frame i).map fun v => (v * (31 - (f : Int)) + 16) / 32
                else x.frame i
      else
        (t.link l).state = .search ∧ (t.link l).phase = .hunt ∧ EmptiedLink (s.link l) (t.link l) ∧
          (t.link l).counters =
            { (s.link l).counters with valid := min ((s.link l).counters.valid + 1) 4294967295 } ∧
          RaisedAtAll .linkState s t

/-- The gap timer expires when the tick counter reaches its deadline: LOCKED goes to HOLDOVER with the holdover timer
set, ACQUIRE goes to SEARCH; a timer that does not run, or whose deadline still lies ahead, does nothing (R16, R18). An
expiry taken late counts from its deadline, one whose deadline is a house sample's own tick follows that house sample
(log 25), and one that lies ahead of an open block end closes it first
(log 4), by the model's choice. -/
def Obligations.GapTimerExpires : Prop :=
  ∀ (l : LinkId) (s₀ : State),
    Completes (.gapTimerExpiry l) s₀ fun t =>
      let s := s₀.closeBefore (s₀.link l).gapDeadline
      (s₀.blockEndOpen = false → s = s₀) ∧
      match (s.link l).gapDeadline with
      | none => t = s
      | some d =>
        if (d - s.tick).toNat ≤ s.runLimit ∨ 2147483648 ≤ (d - s.tick).toNat then
          t.tick = (if (d - s.tick).toNat ≤ s.runLimit then d else s.tick) ∧
          if (s.link l).state = .locked then
            (t.link l) = { s.link l with
              state := .holdover, gapDeadline := none, holdDeadline := some (d + 786432) } ∧
            RaisedAtAll .linkState s t
          else if (s.link l).state = .acquire then
            (t.link l).state = .search ∧ (t.link l).phase = (s.link l).phase ∧ EmptiedLink (s.link l) (t.link l) ∧
            RaisedAtAll .linkState s t
          else t = { s with tick := t.tick }
        else t = s

/-- The holdover timer expires when the tick counter reaches its deadline, and HOLDOVER goes to SEARCH; otherwise nothing
happens (R17, R18). An expiry may be taken late, one whose deadline is a house sample's own tick follows that house sample
(log 25), and one that lies ahead of an open block end closes it first
(log 4), by the model's choice. -/
def Obligations.HoldoverTimerExpires : Prop :=
  ∀ (l : LinkId) (s₀ : State),
    Completes (.holdoverTimerExpiry l) s₀ fun t =>
      let s := s₀.closeBefore (s₀.link l).holdDeadline
      (s₀.blockEndOpen = false → s = s₀) ∧
      match (s.link l).holdDeadline with
      | none => t = s
      | some d =>
        if (d - s.tick).toNat ≤ s.runLimit ∨ 2147483648 ≤ (d - s.tick).toNat then
          t.tick = (if (d - s.tick).toNat ≤ s.runLimit then d else s.tick) ∧
          if (s.link l).state = .holdover then
            (t.link l).state = .search ∧ (t.link l).phase = (s.link l).phase ∧
            (t.link l).counters = (s.link l).counters ∧ EmptiedLink (s.link l) (t.link l) ∧
            RaisedAtAll .linkState s t
          else t = { s with tick := t.tick }
        else t = s

/-- What the commands of a feed link leave alone when no block end is closed by the time they let pass: the other links,
the selector, the scene, the room, the cues, the output stage, the reference, the store, the reset cause and, of every
port, all but its pending notices; a START or a timer raises none but LINK_STATE (R7, R9, R18, R159). That passing time closes an open block end is the model's choice (log 4). -/
def Obligations.FeedCommandsFrame : Prop :=
  ∀ (l : LinkId) (c : Instr) (s t : State),
    ((∃ ticks, c = .startSymbol l ticks ∧ (s.blockEndOpen = false ∨ ticks = 0)) ∨
      (∃ symbols, c = .feedBlock l symbols) ∨
      (c = .gapTimerExpiry l ∧ (s.blockEndOpen = false ∨ (s.link l).gapDeadline = some s.tick)) ∨
      (c = .holdoverTimerExpiry l ∧ (s.blockEndOpen = false ∨ (s.link l).holdDeadline = some s.tick))) →
    exec c s = .next t →
    t = (({ s with tick := t.tick } : State).withPortsOf t).withLinksOf t ∧ (∀ k, k ≠ l → t.link k = s.link k) ∧
      (∀ q, t.port q = { s.port q with raised := (t.port q).raised }) ∧
      ((∃ symbols, c = .feedBlock l symbols) ∨
        ∀ q n, n ≠ .linkState → (t.port q).isRaised n = (s.port q).isRaised n)

/-! ### House samples and block ends -/

/-- A house sample in RUN after the first block end, for every bus: the sum of the block's terms, rounded and clamped,
scaled by trim and effective master level, saturated, metered, and sent through the bus's delay line; a saturation
counts a clip and raises CLIP at port C. And what goes into it: the interpolated value of a track between four frames and
its saturation, a link's output read at its position or fading out a departing one, its zeros when it is not running or
starved, the programme values of each selector state, and the sum over a bus's terms (R40, R45 to R51, R63, R96, R100,
R101, R105, R106, R141, R148, R149). That the tick counter runs on to the next multiple of 512 (log 2), and that an index
without a stamp has a track count of 0 (log 26), is the model's choice, as is the mark of the first frame after RESET
(log 38). -/
def Obligations.HouseSampleMixes : Prop :=
  (∀ s : State, s.startup = .run → s.blockEndOpen = false → s.mixing = true → s.samplesDone < 32 →
    Completes .houseSample s fun t =>
      let a := (s.linkA.sample 112 s.samplesDone).1
      let b := (s.linkB.sample 112 s.samplesDone).1
      let aux := (s.linkC.sample 8 s.samplesDone).1
      let bus : Nat → Bus := fun i => s.buses.getD i Bus.reset
      let acc : Nat → Int := fun i => accumulate s.mixTerms (programmeValues s.sel.inForce a b) aux i
      let v : Nat → Int := fun i => max (-134217728) (min 134217728 ((acc i + 16384) / 32768))
      let raw : Nat → Int := fun i =>
        (v i * ((bus i).inTrim : Int) * ((bus i).inMeff : Int) + 536870912) / 1073741824
      let y : Nat → Int := fun i => max (-8388608) (min 8388607 (raw i))
      t.samplesDone = s.samplesDone + 1 ∧ t.tick = s.tick + BitVec.ofNat 32 (512 - s.tick.toNat % 512) ∧
      t.outMark = decide (s.samplesDone = 0) ∧ t.blockCount = s.blockCount ∧
      t.linkA = (s.linkA.sample 112 s.samplesDone).2 ∧ t.linkB = (s.linkB.sample 112 s.samplesDone).2 ∧
      t.linkC = (s.linkC.sample 8 s.samplesDone).2 ∧ t.outFrame.length = s.buses.length ∧
      (∀ i, i < s.buses.length →
        t.outFrame.getD i 0 = ((y i :: (bus i).line).take 2048).getD (bus i).inDelay 0 ∧
        t.buses.getD i Bus.reset =
          { bus i with
            line := (y i :: (bus i).line).take 2048,
            overload := if (acc i + 16384) / 32768 = v i then (bus i).overload
              else min ((bus i).overload + 1) 4294967295,
            clips := if raw i = y i then (bus i).clips else min ((bus i).clips + 1) 65535 } ∧
        ∀ p, i < (s.port p).peaks.length →
          (t.port p).peaks.getD i 0 = max ((s.port p).peaks.getD i 0) (y i).natAbs) ∧
      ((∃ i, i < s.buses.length ∧ raw i ≠ y i) → (t.port .C).isRaised .clip = true)) ∧
  (∀ (f : Nat) (a b c d : Int), interpolate f a b c d =
    max (-8388608) (min 8388607
      ((2 * b + ((c - a) + ((2 * a - 5 * b + 4 * c - d) + (3 * (b - c) + d - a) * f / 65536) * f / 65536) * f / 65536 + 1)
        / 2))) ∧
  (∀ (width j : Nat) (x : Link), x.ring.length = 256 → (∀ frame ∈ x.ring, frame.length = width) →
    let silence : List Int := List.replicate width 0
    let held : FrameIndex → Prop := fun i => 1 ≤ (x.written - i).toNat ∧ (x.written - i).toNat ≤ x.held
    let stored : FrameIndex → Nat → Int := fun i track => (x.ring.getD (i.toNat % 256) []).getD track 0
    let value : ReadPos → Nat → Int := fun p track =>
      let n := p.index
      let count := ((x.stamps.find? fun σ => decide ((n - σ.first).toNat < 32)).map Stamp.tracks).getD 0
      if track < count then
        interpolate (p.frac / 256) (stored (if 1 ≤ (x.written - (n - 1)).toNat ∧ (x.written - (n - 1)).toNat ≤ x.held
          then n - 1 else n) track) (stored n track) (stored (n + 1) track) (stored (n + 2) track)
      else 0
    let moved : ReadPos → ReadPos := fun p =>
      ⟨p.index + BitVec.ofNat 32 (((p.frac : Int) + 16777216 + x.taken) / 16777216).toNat,
        (((p.frac : Int) + 16777216 + x.taken) % 16777216).toNat⟩
    let (out, y) := x.sample width j
    if x.running = true then
      match x.readPos, x.fresh with
      | none, _ => out = silence ∧ y = x
      | some p, .no =>
        let ahead := (x.written - (p.index + 2)).toNat
        if ahead = 0 ∨ 2147483648 ≤ ahead then
          out = silence ∧
            y = { x with counters := { x.counters with starved := min (x.counters.starved + 1) 4294967295 } }
        else
          out.length = width ∧ y = { x with readPos := some (moved p) } ∧
          ∀ track, track < width → out.getD track 0 =
            (if x.fadeIn = true then (value p track * ((j : Int) + 1) + 16) / 32 else value p track)
      | some _, _ =>
        match x.departing with
        | none => out = silence ∧ y = x
        | some d =>
          (d.total ≤ d.given → out = silence ∧ y = x) ∧
          (d.given < d.total → held d.pos.index → held (d.pos.index + 1) → held (d.pos.index + 2) →
            out.length = width ∧
            y = { x with departing := some ⟨moved d.pos, d.level, d.total, d.given + 1⟩ } ∧
            ∀ track, track < width → out.getD track 0 =
              (value d.pos track * (d.level * (d.total - 1 - d.given) / d.total : Nat) + 16) / 32) ∧
          (d.given < d.total → ¬ (held d.pos.index ∧ held (d.pos.index + 1) ∧ held (d.pos.index + 2)) →
            out = silence ∧ y = { x with departing := none })
    else out = silence ∧ y = x) ∧
  (∀ (outA outB : List Int) (track : Nat), track < 112 → outA.length = 112 → outB.length = 112 →
    let output : ProgLink → Int := fun x => (match x with | .A => outA | .B => outB).getD track 0
    (programmeValues .idle outA outB).getD track 0 = 0 ∧
    (∀ x, (programmeValues (.on x) outA outB).getD track 0 = output x) ∧
    ∀ (out : Option ProgLink) (inc : ProgLink) (k : Nat),
      (programmeValues (.crossfade out inc k) outA outB).getD track 0 =
        ((match out with | none => 0 | some x => output x) * (4 - (k : Int)) + output inc * (k : Int) + 2) / 4) ∧
  ∀ (terms : List MixTerm) (programme aux : List Int) (bus : Nat), accumulate terms programme aux bus =
    ((terms.filter fun m => decide (m.bus = bus)).map fun m =>
      (match m.source with | .programme track => programme.getD track 0 | .aux track => aux.getD track 0)
        * (m.gain : Int)).sum

/-- A house sample elsewhere: a frame of zeros in LOADING, and in RUN before the first block end, where the links are
already interpolated; and after the 32nd of a block none before the block end (R96, R149, R169, R173; log 2). In RESET
and without power the command does nothing: that no house sample instants are commanded there is the model's choice (logs
22 and 31). And what a house sample leaves alone in every state: the selector, the scene, the room, the cues, the
settings, the reference, the store, the reset cause, the block count, and of every port all but peaks and pending notices
(R96, R105, R106). That the first frame after RESET bears the block mark is the model's choice (log 38). -/
def Obligations.HouseSampleOutsideRunAndFrame : Prop :=
  (∀ s : State, s.blockEndOpen = false → (s.startup ≠ .run ∨ 32 ≤ s.samplesDone) →
    Completes .houseSample s fun t =>
      if s.startup = .loading ∧ s.samplesDone < 32 then
        t = { s with
          outFrame := List.replicate 64 0, outMark := decide (s.samplesDone = 0),
          samplesDone := s.samplesDone + 1, tick := s.tick + BitVec.ofNat 32 (512 - s.tick.toNat % 512) }
      else t = s) ∧
  (∀ s : State, s.startup = .run → s.blockEndOpen = false → s.mixing = false → s.samplesDone < 32 →
    exec .houseSample s = .next
      { s with
        linkA := (s.linkA.sample 112 s.samplesDone).2, linkB := (s.linkB.sample 112 s.samplesDone).2,
        linkC := (s.linkC.sample 8 s.samplesDone).2,
        outFrame := List.replicate 64 0, outMark := decide (s.samplesDone = 0),
        samplesDone := s.samplesDone + 1, tick := s.tick + BitVec.ofNat 32 (512 - s.tick.toNat % 512) }) ∧
  ∀ s t : State, s.blockEndOpen = false → exec .houseSample s = .next t →
    t = (({ s with
      tick := t.tick, samplesDone := t.samplesDone, outFrame := t.outFrame, outMark := t.outMark,
      buses := t.buses } : State).withPortsOf t).withLinksOf t ∧
    (∀ q, t.port q = { s.port q with raised := (t.port q).raised, peaks := (t.port q).peaks }) ∧
    ∀ i, i < s.buses.length → t.buses.getD i Bus.reset =
      { s.buses.getD i Bus.reset with
        line := (t.buses.getD i Bus.reset).line, overload := (t.buses.getD i Bus.reset).overload,
        clips := (t.buses.getD i Bus.reset).clips }

/-- A block end is counted: the house block count rises by one, the tick counter stands at the end of the block's 16,384
ticks, the requests that wait become due, and settings, delays, reference, store and reset cause stay (R154, R169). In RUN
the interpolator takes every link's applied step offset, drops its departing position, and begins to read a fresh read
position with a fade-in (R26, R35, R38, R51). Its close takes what is still due, and in RUN puts the selector's state in force, fixes the effective gains and the start
index for the block that begins and drops the marks of the block end (R54, R77, R93, R96, R113, R121, R126); a slip at the
open block end falls in the block that begins and leaves the start index before it (R50, R114; log 4). That the
counter runs on to that instant, and that the block end stays open until a later command closes it, is the model's choice
(logs 3 to 5), as is that the interpolator takes the offset of a link that is not running too (log 33), and that a fresh
position moved by an offer at this block end begins to be read as a fresh one (log 10). -/
def Obligations.BlockEndCounts : Prop :=
  (∀ (order : List BlockEvent) (s : State), s.ticking = true → s.blockEndOpen = false → NoTakes order s →
    Completes (.blockEnd order) s fun t =>
      t.blockCount = s.blockCount + 1 ∧ t.samplesDone = 0 ∧ t.blockEndOpen = true ∧ t.startup = s.startup ∧
      t.tick = (if s.samplesDone = 32 then s.tick else s.tick + BitVec.ofNat 32 (16384 - s.tick.toNat % 16384)) ∧
      (∀ p, (t.port p).waiting = (s.port p).waiting ∧ (t.port p).due = (s.port p).waiting.isSome ∧
        (t.port p).response = (s.port p).response ∧ (t.port p).refusal = (s.port p).refusal ∧
        (t.port p).mask = (s.port p).mask ∧ (t.port p).enable = (s.port p).enable ∧
        (t.port p).peaks = (s.port p).peaks) ∧
      t.airTemp = s.airTemp ∧ t.members = s.members ∧ t.ref = s.ref ∧ t.store = s.store ∧ t.cause = s.cause ∧
      t.outFrame = s.outFrame ∧ t.sel.inForce = s.sel.inForce ∧ t.sel.primary = s.sel.primary ∧
      t.sel.autoRevert = s.sel.autoRevert ∧ t.sel.manualHold = s.sel.manualHold ∧
      (t.buses.map fun b => { b with mute := Ramp.rest 0 }) = (s.buses.map fun b => { b with mute := Ramp.rest 0 }) ∧
      t.delayDirty = s.delayDirty ∧ t.mixTerms = s.mixTerms ∧ t.cueing.start = s.cueing.start ∧
      (s.startup = .run → t.mixing = true ∧ ∀ l, t.link l =
        { s.link l with
          taken := (s.link l).applied, departing := none, fadeIn := decide ((s.link l).fresh ≠ .no), fresh := .no,
          readPos := (t.link l).readPos, stamps := (t.link l).stamps, queue := (t.link l).queue,
          counters := { (s.link l).counters with rejected := (t.link l).counters.rejected } }) ∧
      (s.startup = .run ∨ t = (({ s with
        tick := t.tick, blockCount := t.blockCount, samplesDone := 0, blockEndOpen := true } : State).withPortsOf t))) ∧
  (∀ s : State, s.startup = .run → s.blockEndOpen = true → (∀ p, (s.port p).due = false) →
    let t := s.closeBlockEnd
    let settled : Ramp → Ramp := fun x => { x with changed := false }
    let opening : Option ProgLink :=
      match s.sel.cur with | .idle => none | .on x => some x | .crossfade _ inc _ => some inc
    t = { s.withPortsOf t with
      blockEndOpen := false, buses := t.buses, delayDirty := false,
      sel := { s.sel with inForce := s.sel.cur, setHere := false },
      scene := { s.scene with
        slots := s.scene.slots.map fun x => { x with ramp := settled x.ramp },
        roomSlots := s.scene.roomSlots.map fun x => { x with ramp := settled x.ramp } },
      mixTerms := s.scene.slots.flatMap (Slot.terms s.room.programme.current) ++
        s.scene.roomSlots.flatMap RoomSlot.terms,
      room := { s.room with programme := settled s.room.programme, master := settled s.room.master },
      cueing := { s.cueing with
        start := match opening with
          | none => none
          | some x => (s.link (progLink x)).readPos.map fun p =>
            (x, match (s.link (progLink x)).fresh with | .slip origin => origin | _ => p.index),
        cues := s.cueing.cues.map fun c => { c with added := false }, workDone := false } } ∧
    ∀ p, t.port p =
      (if (s.port p).live = none then s.port p
      else { s.port p with response := (t.port p).response, live := none })) ∧
  (∀ s : State, s.startup ≠ .run → s.blockEndOpen = true → (∀ p, (s.port p).due = false) →
    let t := s.closeBlockEnd
    t = { s.withPortsOf t with blockEndOpen := false }) ∧
  (∀ (p : PortId) (r : Request) (s t : State), Takable p r s ∨ TakableLoading p r s → s.blockEndOpen = true →
    (s.port p).due = true →
    (∀ q, q ≠ p → (s.port q).due = false) → exec (commandOf p r) s = .next t →
    s.closeBlockEnd = t.closeBlockEnd) ∧
  ∀ s : State, s.closeBlockEnd.blockEndOpen = false ∧
    (s.blockEndOpen = false → s.closeBlockEnd = s) ∧
    exec .houseSample s = exec .houseSample s.closeBlockEnd ∧
    (∀ order, exec (.blockEnd order) s = exec (.blockEnd order) s.closeBlockEnd) ∧
    (∀ p n, exec (.readSelection p n) s = exec (.readSelection p n) s.closeBlockEnd) ∧
    (s.startup = .loading → s.tick.toNat ≤ 57344 → (∀ p, (s.port p).due = false) →
      exec .loadEnd s = exec .loadEnd s.closeBlockEnd)

/-- At a block end in RUN with no cues and no programme in the block that ends, every ramp is stepped once, a ramp
changed at this block end is left alone, and a release that ends frees its slot (R76, R77, R79, R128, R144). The taking
of a request is an event of its own among the works: a level change taken before the room state's step starts from the
level that the ending block played and is not stepped at this block end, and one taken after it starts from the stepped
level; a request taken after every work is taken as its own command takes it at the open block end (R77, R129, R154; the
order is the command's, log 6). -/
def Obligations.BlockEndStepsRamps : Prop :=
  let stepped : Ramp → Ramp := fun x =>
    if x.remaining = 0 ∨ x.changed = true then x
    else ⟨((x.current : Int) + ((x.target : Int) - x.current).tdiv x.remaining).toNat, x.target,
      x.remaining - 1, x.changed⟩
  (∀ (order : List BlockEvent) (s : State), s.startup = .run → s.blockEndOpen = false → NoTakes order s →
    s.cueing.cues = [] → s.sel.inForce = .idle →
    Completes (.blockEnd order) s fun t =>
      t.room = { s.room with programme := stepped s.room.programme, master := stepped s.room.master } ∧
      t.buses = (s.buses.map fun b => { b with mute := stepped b.mute }) ∧
      t.scene.roomSlots = (s.scene.roomSlots.map fun x => { x with ramp := stepped x.ramp }) ∧
      t.scene.slots = (s.scene.slots.map fun x =>
        if x.state = .releasing ∧ x.ramp.remaining = 1 ∧ x.ramp.changed = false then
          ⟨.free, x.track, ⟨0, 0, 0, false⟩, []⟩
        else { x with ramp := stepped x.ramp })) ∧
  (∀ (pre post : List BlockEvent) (p : PortId) (level ramp : Nat) (s : State), s.startup = .run →
    s.blockEndOpen = false → s.cueing.cues = [] → s.sel.inForce = .idle → BlockEvent.take p ∉ pre →
    (s.port p).waiting = some (.setProgrammeLevel level ramp) → (∀ q, q ≠ p → (s.port q).waiting = none) →
    Completes (.blockEnd (pre ++ [.take p] ++ post)) s fun t =>
      let found := if BlockEvent.work .levels ∈ pre then stepped s.room.programme else s.room.programme
      t.room = { s.room with
        programme := if ramp = 0 then ⟨min level 32768, min level 32768, 0, true⟩
          else ⟨found.current, min level 32768, ramp, true⟩,
        master := stepped s.room.master } ∧
      (t.port p).waiting = none ∧ (t.port p).response = some ⟨.ok, 0x30, []⟩ ∧ t.blockEndOpen = true) ∧
  ∀ (works : List Work) (p : PortId) (r : Request) (s t u : State), s.startup = .run → s.blockEndOpen = false →
    (∀ w, w ∈ works) → (s.port p).waiting = some r → exec (.blockEnd (works.map .work)) s = .next u →
    exec (commandOf p r) u = .next t → exec (.blockEnd (works.map .work ++ [.take p])) s = .next t

/-- The selector at a block end. IDLE enters a crossfade from NONE to the fit primary, or to the other link if only that is
fit, with PROGRAMME at all ports, and otherwise stays; every entry from NONE is a LOCATE, which clears the match flags
and sets the high-water mark to the show position of the new programme's reader. ON(X) counts towards a revert while X is fit, and otherwise fails
over, stays, or goes to IDLE. After its step 1, 2 or 3 a crossfade is reversed at 4 − k when its incoming link is unfit
and its outgoing one fit, and otherwise moves on by one step; after its step 4 it is completed and decided as ON, or
reversed to ON of its outgoing link; one that was entered at this block end stays. The standby is aligned to the
programme first, and a link that is not the programme drops the records at or below its read index, as does one that
becomes the programme (R41, R57 to R62, R64, R65, R116). That a completed crossfade counts towards a revert from 0 is the
model's reading (log 11). -/
def Obligations.BlockEndSelects : Prop :=
  (∀ (order : List BlockEvent) (s : State), s.startup = .run → s.blockEndOpen = false → NoTakes order s →
    s.sel.cur = .idle →
    Completes (.blockEnd order) s fun t =>
      t.sel.align = .notReady ∧ t.sel.revert = 0 ∧
      if s.fit s.sel.primary = true then
        t.sel.cur = .crossfade none s.sel.primary 1 ∧ Located s.sel.primary t ∧ ∀ q, (t.port q).isRaised .programme = true
      else if s.fit (otherProg s.sel.primary) = true then
        t.sel.cur = .crossfade none (otherProg s.sel.primary) 1 ∧ Located (otherProg s.sel.primary) t ∧
          ∀ q, (t.port q).isRaised .programme = true
      else t.sel.cur = .idle) ∧
  (∀ (order : List BlockEvent) (s : State) (x : ProgLink), s.startup = .run → s.blockEndOpen = false →
    NoTakes order s → s.sel.cur = .on x → Completes (.blockEnd order) s fun t => DecidedOn x s.sel.revert s t) ∧
  (∀ (order : List BlockEvent) (s : State) (out : Option ProgLink) (inc : ProgLink) (k : Nat),
    s.startup = .run → s.blockEndOpen = false → NoTakes order s → s.sel.cur = .crossfade out inc k →
    s.sel.setHere = false → 1 ≤ k → k ≤ 3 →
    Completes (.blockEnd order) s fun t =>
      t.sel.revert = 0 ∧
      if out = some (otherProg inc) ∧ s.fit inc = false ∧ s.fit (otherProg inc) = true then
        t.sel.cur = .crossfade (some inc) (otherProg inc) (4 - k) ∧ ∀ q, (t.port q).isRaised .programme = true
      else t.sel.cur = .crossfade out inc (k + 1)) ∧
  (∀ (order : List BlockEvent) (s : State) (out : Option ProgLink) (inc : ProgLink),
    s.startup = .run → s.blockEndOpen = false → NoTakes order s → s.sel.cur = .crossfade out inc 4 →
    s.sel.setHere = false →
    Completes (.blockEnd order) s fun t =>
      if out = some (otherProg inc) ∧ s.fit inc = false ∧ s.fit (otherProg inc) = true then
        t.sel.cur = .on (otherProg inc) ∧ t.sel.revert = 0 ∧ ∀ q, (t.port q).isRaised .programme = true
      else DecidedOn inc 0 s t) ∧
  (∀ (order : List BlockEvent) (s : State) (out : Option ProgLink) (inc : ProgLink) (k : Nat),
    s.startup = .run → s.blockEndOpen = false → NoTakes order s → s.sel.cur = .crossfade out inc k →
    s.sel.setHere = true →
    Completes (.blockEnd order) s fun t => t.sel.cur = .crossfade out inc k ∧ t.sel.revert = 0) ∧
  (∀ (order : List BlockEvent) (s : State) (x : ProgLink), s.startup = .run → s.blockEndOpen = false →
    NoTakes order s → s.opening = some x →
    Completes (.blockEnd order) s fun t =>
      let z := s.link (progLink (otherProg x))
      let position := (t.link (progLink (otherProg x))).readPos
      if s.fit (otherProg x) = true then
        ∀ q, z.readPos = some q →
          match (s.link (progLink x)).readPos with
          | none => t.sel.align = .unaligned ∧ position = z.readPos
          | some p =>
            match (s.link (progLink x)).stamps.find? fun σ => decide ((p.index - σ.first).toNat < 32) with
            | none => t.sel.align = .unaligned ∧ position = z.readPos
            | some τ =>
              let lin := (τ.pos.lin + (p.index - τ.first).toNat) % 131072000
              let candidate : Stamp → FrameIndex → Prop := fun σ m =>
                σ.pos.reel = τ.pos.reel ∧
                  (∃ k, k < 32 ∧ m = σ.first + BitVec.ofNat 32 k ∧ (σ.pos.lin + k) % 131072000 = lin) ∧
                  1 ≤ (z.written - m).toNat ∧ (z.written - m).toNat ≤ z.held
              let distance : FrameIndex → Nat := fun m => min (m - q.index).toNat (q.index - m).toNat
              ((∀ σ ∈ z.stamps, ∀ m, ¬ candidate σ m) → t.sel.align = .unaligned ∧ position = z.readPos) ∧
              ∀ (before after : List Stamp) (σ : Stamp) (m : FrameIndex), z.stamps = before ++ σ :: after →
                candidate σ m → (∀ ρ ∈ before, ∀ m', candidate ρ m' → distance m < distance m') →
                (∀ ρ ∈ after, ∀ m', candidate ρ m' → distance m ≤ distance m') →
                if 48 ≤ (z.written - m).toNat ∧ (z.written - m).toNat ≤ 208 then
                  t.sel.align = .aligned ∧ position = some ⟨m, p.frac⟩
                else t.sel.align = .unaligned ∧ position = z.readPos
      else t.sel.align = .notReady ∧ position = z.readPos) ∧
  ∀ (order : List BlockEvent) (s : State) (x : ProgLink), s.startup = .run → s.blockEndOpen = false →
    NoTakes order s → (s.link (progLink x)).running = true → s.closing ≠ some x →
    Completes (.blockEnd order) s fun t => ∀ p, (t.link (progLink x)).readPos = some p →
      s.opening ≠ some x ∨ t.opening ≠ some x →
      (t.link (progLink x)).queue = (s.link (progLink x)).queue.filter fun r =>
        decide (2147483648 ≤ (p.index - r.tag).toNat)

/-! ### Selections -/

/-- A request selection. In RUN, with a request waiting it is refused BUSY; otherwise held answers are discarded and the
first check that fails is answered at once, or the request waits. In LOADING a request that passes the checks waits if
it is GET_STATUS or GET_RESET_CAUSE and is answered BUSY at once otherwise, and one that waits is taken at a block end as
in RUN; in RESET nothing is accepted (R151 to R153,
R173, R174). The four checks in their order: the frame, the command's code, the port's right to it, and its payload with
the ranges that the owning rules accept (R152, R157, R164). A command presented at its port without a request of its own
that may be taken is accepted like the frame that carries it, and taken at once where a block end falls together with its
acceptance (R154). The code that a refusal of a one-byte selection echoes, filler in RESET, and the order of the checks
on LINK_RESTART are the model's choice (log 14), as is a command's standing for its own request (log 5). -/
def Obligations.RequestSelectionRuns : Prop :=
  (∀ (p : PortId) (b : Byte) (rest : List Byte) (s : State), s.startup = .run → b ≠ 0x5A →
    Completes (.requestSelection p (b :: rest)) s fun t =>
      t = s.withPortsOf t ∧
      OnlyPort p
        (match (s.port p).waiting, checkFrame p (b :: rest) with
          | some _, _ =>
            { s.port p with
              refusal := some (codeByte (b :: rest)), dataOut := List.replicate (rest.length + 1) 0xFF }
          | none, .fail status code =>
            { s.port p with
              response := some ⟨status, code, []⟩, refusal := none, live := none, due := false,
              dataOut := List.replicate (rest.length + 1) 0xFF }
          | none, .pass r =>
            { s.port p with
              waiting := some r, response := none, refusal := none, live := none, due := false,
              dataOut := List.replicate (rest.length + 1) 0xFF }) s t) ∧
  (∀ (p : PortId) (b : Byte) (rest : List Byte) (s : State) (r : Request), b ≠ 0x5A →
    checkFrame p (b :: rest) = .pass r → (s.port p).waiting = none → (s.startup = .loading ∨ s.startup = .reset) →
    Completes (.requestSelection p (b :: rest)) s fun t =>
      t = s.withPortsOf t ∧
      OnlyPort p
        (if s.startup = .reset then { s.port p with dataOut := List.replicate (rest.length + 1) 0xFF }
        else if (match r with | .getStatus _ => true | .getResetCause => true | _ => false) = true then
          { s.port p with
            waiting := some r, response := none, refusal := none, live := none, due := false,
            dataOut := List.replicate (rest.length + 1) 0xFF }
        else
          { s.port p with
            waiting := none, response := some ⟨.busy, requestCode r, []⟩, refusal := none, live := none, due := false,
            dataOut := List.replicate (rest.length + 1) 0xFF }) s t) ∧
  (∀ (p : PortId) (sent : List Byte), sent.length < 3 → checkFrame p sent = .fail .badFrame (sent.getD 1 0)) ∧
  (∀ (p : PortId) (start code len : Byte) (rest : List Byte),
    let payload := rest.take len.toNat
    let whole : Prop := start = 0xA5 ∧ len.toNat ≤ 250 ∧ len.toNat < rest.length ∧
      rest.getD len.toNat 0 = payload.foldl (· ^^^ ·) (code ^^^ len)
    let known : Prop := code ∈ ([0x01, 0x02, 0x03, 0x04, 0x05, 0x06, 0x07, 0x08, 0x09, 0x10, 0x11, 0x12, 0x13, 0x18, 0x19,
      0x20, 0x21, 0x22, 0x28, 0x29, 0x2A, 0x2B, 0x30, 0x31, 0x32, 0x33, 0x34, 0x35, 0x38, 0x39, 0x3A, 0x3B, 0x40, 0x41,
      0x42, 0x43] : List Byte)
    let allowed : Prop := p = .C ∨ code.toNat < 0x28 ∧ code ≠ 0x21 ∧ code ≠ 0x22 ∨ code = 0x28
    let denied : Prop := (p = .C ∧ code = 0x28) ∨ ¬ allowed
    let checked := checkFrame p (start :: code :: len :: rest)
    (¬ whole → checked = .fail .badFrame code) ∧ (whole → ¬ known → checked = .fail .unknown code) ∧
    (whole → known → match readRequest code payload with
      | some r => checked = checkRequest p r
      | none => (denied → checked = .fail .notPermitted code) ∧ (¬ denied → checked = .fail .badArgument code))) ∧
  (∀ (p : PortId) (r : Request),
    let right : Prop :=
      match r with
      | .getStatus _ | .getCounters _ | .getMeters _ | .getPosition | .getSlot _ _ | .getNotices => True
      | .setNoticeMask _ | .setNoticeEnable _ | .getResetCause => True
      | .cueAdd _ | .cueCancel _ | .cueList _ | .cueLog | .roomPush _ _ _ | .roomPop _ => True
      | .linkRestart l => p = .C ∨ (p = .A ∧ l = .A) ∨ (p = .B ∧ l = .B)
      | .handover => p = .A ∨ p = .B
      | _ => p = .C
    let inRange : Prop :=
      match r with
      | .getStatus sect => sect ≤ 7
      | .getCounters sect => sect ≤ 2
      | .getMeters group => group ≤ 3
      | .getSlot .programme slot => slot ≤ 127
      | .getSlot .room slot => slot ≤ 7
      | .cueAdd c =>
        1 ≤ c.id ∧ c.id ≤ 255 ∧ ¬ (c.reel = none ∧ c.frame = none ∧ c.offset = none) ∧
          (∀ v ∈ c.reel, 1 ≤ v ∧ v ≤ 15) ∧ (∀ v ∈ c.frame, v ≤ 65535) ∧ (∀ v ∈ c.offset, v ≤ 1999) ∧
          (match c.action with
            | .programmeLevel level ramp => level ≤ 65535 ∧ ramp ≤ 255
            | .roomPush programme master ramp =>
              (∀ v ∈ programme, v ≤ 65535) ∧ (∀ v ∈ master, v ≤ 65535) ∧ ramp ≤ 255
            | .roomPop ramp => ramp ≤ 255
            | .muteGroup group _ => group ≤ 3
            | .notify => True)
      | .cueCancel id => id ≤ 255
      | .cueList rank => rank ≤ 47
      | .roomPush programme master ramp =>
        (∀ v ∈ programme, v ≤ 65535) ∧ (∀ v ∈ master, v ≤ 65535) ∧ ramp ≤ 255
      | .roomPop ramp => ramp ≤ 255
      | .forceProgramme l | .setPrimary l => l = .A ∨ l = .B
      | .setProgrammeLevel level ramp | .setMasterLevel level ramp => level ≤ 65535 ∧ ramp ≤ 255
      | .muteGroup group _ => group ≤ 3
      | .roomSlotSet slot track gain ramp list =>
        slot ≤ 7 ∧ track ≤ 7 ∧ gain ≤ 65535 ∧ ramp ≤ 255 ∧ 1 ≤ list.length ∧ list.length ≤ 8 ∧
          (∀ c ∈ list, c.bus ≤ 63) ∧ (list.map Contribution.bus).Nodup
      | .roomSlotGain slot gain ramp => slot ≤ 7 ∧ gain ≤ 65535 ∧ ramp ≤ 255
      | .roomSlotClear slot => slot ≤ 7
      | .setBusTrim bus trim => bus ≤ 63 ∧ trim ≤ 65535
      | .setBusDistance bus distance => bus ≤ 63 ∧ distance ≤ 65535
      | .setAirTemp temp => -128 ≤ temp ∧ temp ≤ 127
      | .setMuteGroup group list => group ≤ 3 ∧ list.length ≤ 64 ∧ ∀ b ∈ list, b ≤ 63
      | _ => True
    (¬ right → checkRequest p r = .fail .notPermitted (requestCode r)) ∧
    (right → ¬ inRange → checkRequest p r = .fail .badArgument (requestCode r)) ∧
    (right → inRange → checkRequest p r = .pass r)) ∧
  (∀ (p : PortId) (r : Request) (s : State), s.ticking = false → exec (commandOf p r) s = .next s) ∧
  (∀ (p : PortId) (r : Request) (s : State), Takable p r s ∨ TakableLoading p r s →
    exec (commandOf p r) s = .next (takeRequest p r s)) ∧
  ∀ (p : PortId) (r : Request) (s : State), s.ticking = true →
    ¬ ((s.port p).waiting = some r ∧ (s.samplesDone = 32 ∨ (s.blockEndOpen = true ∧ (s.port p).due = true))) →
    let answered : Status → Port := fun status =>
      { s.port p with
        waiting := none, due := false, response := some ⟨status, requestCode r, []⟩, refusal := none, live := none }
    let waits : Port :=
      { s.port p with waiting := some r, due := false, response := none, refusal := none, live := none }
    Completes (commandOf p r) s fun t =>
      match (s.port p).waiting, checkRequest p r with
      | some _, _ => t = s.setPort p { s.port p with refusal := some (requestCode r) }
      | none, .fail status _ => t = s.setPort p (answered status)
      | none, .pass _ =>
        if s.startup = .loading ∧ (match r with | .getStatus _ => false | .getResetCause => false | _ => true) = true then
          t = s.setPort p (answered .busy)
        else if s.samplesDone = 32 ∨ s.blockEndOpen = true then t = takeRequest p r (s.setPort p waits)
        else t = s.setPort p waits

/-- A read selection in LOADING or RUN sends the held refusal, else the held response, else PENDING for the waiting
request, else PENDING for code 0; a frame sent whole releases the refusal or response it carried; filler follows the
check byte; in RESET filler is sent (R155, R164, R173). A selection whose first byte is the fetch byte is a read
selection, and one without a whole byte does nothing (R151). What the data output carries is kept from the byte after the
fetch byte on (log 35). -/
def Obligations.ReadSelectionSends : Prop :=
  (∀ (p : PortId) (n : Nat) (s : State), s.blockEndOpen = false → (s.port p).live = none → s.startup ≠ .off →
    Completes (.readSelection p n) s fun t =>
      t = s.withPortsOf t ∧
      let x := s.port p
      let sent : Response :=
        match x.refusal, x.response, x.waiting with
        | some code, _, _ => ⟨.busy, code, []⟩
        | none, some r, _ => r
        | none, none, some r => ⟨.pending, requestCode r, []⟩
        | none, none, none => ⟨.pending, 0, []⟩
      let body := [sent.status.byte, sent.code, BitVec.ofNat 8 sent.payload.length] ++ sent.payload
      let frame := [0xC3] ++ body ++ [body.foldl (· ^^^ ·) 0]
      OnlyPort p
        (if s.startup = .reset then { x with dataOut := List.replicate n 0xFF }
        else
          { x with
            refusal := if sent.payload.length + 5 ≤ n then none else x.refusal,
            response := if sent.payload.length + 5 ≤ n ∧ x.refusal = none then none else x.response,
            dataOut := frame.take n ++ List.replicate (n - (sent.payload.length + 5)) 0xFF }) s t) ∧
  ∀ (p : PortId) (s : State), exec (.requestSelection p []) s = .next s ∧
    ∀ rest : List Byte, exec (.requestSelection p (0x5A :: rest)) s = exec (.readSelection p rest.length) s

/-! ### Requests: links and selector -/

/-- LINK_RESTART takes a link to SEARCH and its receiver to HUNT, emptied and cleared when it was not in SEARCH;
LINK_DISABLE takes a link to DISABLED from any other state, emptied and cleared, with its receiver off; LINK_ENABLE takes
a DISABLED link to SEARCH with its receiver in HUNT. LINK_STATE is raised when the state changes, no other link changes,
the counters stay, and all three answer OK (R9, R18, R21, R22). -/
def Obligations.LinkCommandsRun : Prop :=
  (∀ (p : PortId) (l : LinkId) (s : State), Takable p (.linkRestart l) s →
    Completes (.linkRestart p l) s fun t =>
      t = (s.withPortsOf t).withLinksOf t ∧
      (∀ k, k ≠ l → t.link k = s.link k) ∧ (t.link l).counters = (s.link l).counters ∧
      (if (s.link l).state = .search then
        t.link l = { s.link l with phase := .hunt } ∧ Answered p .ok 0x20 [] s t
      else
        (t.link l).state = .search ∧ (t.link l).phase = .hunt ∧ EmptiedLink (s.link l) (t.link l) ∧
          AnsweredRaising .linkState p .ok 0x20 [] s t)) ∧
  (∀ (p : PortId) (l : LinkId) (s : State), Takable p (.linkDisable l) s →
    Completes (.linkDisable p l) s fun t =>
      t = (s.withPortsOf t).withLinksOf t ∧
      (∀ k, k ≠ l → t.link k = s.link k) ∧ (t.link l).counters = (s.link l).counters ∧
      (if (s.link l).state = .disabled then t.link l = s.link l ∧ Answered p .ok 0x21 [] s t
      else
        (t.link l).state = .disabled ∧ (t.link l).phase = .off ∧ EmptiedLink (s.link l) (t.link l) ∧
          AnsweredRaising .linkState p .ok 0x21 [] s t)) ∧
  ∀ (p : PortId) (l : LinkId) (s : State), Takable p (.linkEnable l) s →
    Completes (.linkEnable p l) s fun t =>
      t = (s.withPortsOf t).withLinksOf t ∧ (∀ k, k ≠ l → t.link k = s.link k) ∧
      (t.link l).counters = (s.link l).counters ∧
      (if (s.link l).state = .disabled then
        (t.link l).state = .search ∧ (t.link l).phase = .hunt ∧ EmptiedLink (s.link l) (t.link l) ∧
          AnsweredRaising .linkState p .ok 0x22 [] s t
      else t.link l = s.link l ∧ Answered p .ok 0x22 [] s t)

/-- HANDOVER from a server port, by the selector's state when it is taken (the table of R66): the entry into a crossfade
away from the port's own link prunes the incoming link's queue and raises PROGRAMME at all ports, and makes no LOCATE; in
every other case it is answered and changes nothing (R58, R62). -/
def Obligations.HandoverRuns : Prop :=
  ∀ (p : PortId) (own : ProgLink) (s : State), portProg p = some own → Takable p .handover s →
    Completes (.handover p) s fun t =>
      let refused : Status → Prop := fun status => t = s.withPortsOf t ∧ Answered p status 0x28 [] s t
      match s.sel.cur with
      | .idle => refused .notActive
      | .on x =>
        if own = x then
          if s.fit (otherProg x) = true ∧ s.sel.align = .aligned then
            t = { (s.withPortsOf t).withLinksOf t with
              sel := { s.sel with cur := .crossfade (some x) (otherProg x) 1, setHere := true, revert := 0 } } ∧
            Pruned (otherProg x) s t ∧ AnsweredRaising .programme p .ok 0x28 [] s t
          else refused .notReady
        else refused .notActive
      | .crossfade _ inc _ => refused (if own = inc then .notReady else .notActive)

/-- FORCE_PROGRAMME: NOT_READY for an unfit target; otherwise manual hold is set, the revert counter is 0 and the
programme goes to the target by the selector's state (the table of R67). When the programme moves, the target's queue is
pruned and PROGRAMME raised at all ports; an entry from NONE hands on a LOCATE, which waits for the show position block's
work of this block end or is applied when that is done; nothing else changes (R58, R62, R65, R116). A reversal to weight
0 becomes one to weight 1 (log 12), and a LOCATE after a slip at the open block end stands at the index from before it
(log 4), by the model's choice. -/
def Obligations.ForceProgrammeRuns : Prop :=
  ∀ (p : PortId) (x : ProgLink) (s : State), Takable p (.forceProgramme (progLink x)) s →
    Completes (.forceProgramme p (progLink x)) s fun t =>
      let stays : Prop :=
        t = { s.withPortsOf t with sel := { s.sel with manualHold := true, revert := 0 } } ∧ Answered p .ok 0x29 [] s t
      let moves : SelState → Show → Prop := fun cur cueing =>
        t = { (s.withPortsOf t).withLinksOf t with
          sel := { s.sel with cur := cur, setHere := true, manualHold := true, revert := 0 }, cueing := cueing } ∧
        Pruned x s t ∧ AnsweredRaising .programme p .ok 0x29 [] s t
      let fromNone : Prop := moves (.crossfade none x 1)
        (if s.cueing.workDone = true then
          { s.cueing with
            cues := s.cueing.cues.map fun c => { c with matched := false }, hwm := s.readerAt x, locateHeld := false }
        else { s.cueing with locateHeld := true })
      if s.fit x = true then
        match s.sel.cur with
        | .idle => fromNone
        | .on y =>
          if y = x then stays
          else if s.sel.align = .aligned then moves (.crossfade (some y) x 1) s.cueing
          else fromNone
        | .crossfade out inc k =>
          if inc = x then stays
          else if out = some x then
            if s.sel.setHere = false then moves (if 4 - k = 0 then .on x else .crossfade (some inc) x (4 - k)) s.cueing
            else if weightIn x s.sel.inForce = 4 then moves (.on x) s.cueing
            else moves (.crossfade (some inc) x (max (weightIn x s.sel.inForce) 1)) s.cueing
          else fromNone
      else t = s.withPortsOf t ∧ Answered p .notReady 0x29 [] s t

/-- SET_PRIMARY sets the primary designation and the revert counter to 0; SET_REVERT sets the auto-revert flag and clears
manual hold; both answer OK and leave everything else (R68). -/
def Obligations.PrimaryAndRevertSet : Prop :=
  (∀ (p : PortId) (x : ProgLink) (s : State), Takable p (.setPrimary (progLink x)) s →
    Completes (.setPrimary p (progLink x)) s fun t =>
      t = { s.withPortsOf t with sel := { s.sel with primary := x, revert := 0 } } ∧ Answered p .ok 0x2A [] s t) ∧
  ∀ (p : PortId) (on : Bool) (s : State), Takable p (.setRevert on) s →
    Completes (.setRevert p on) s fun t =>
      t = { s.withPortsOf t with sel := { s.sel with autoRevert := on, manualHold := false } } ∧
        Answered p .ok 0x2B [] s t

/-! ### Requests: scene, room and cues -/

/-- ROOM_SLOT_SET writes the slot: its track, its list sorted and with clamped weights, ACTIVE, and its gain changed, from
silence when the slot was FREE; answered OK (R76, R90). -/
def Obligations.RoomSlotSetRuns : Prop :=
  ∀ (p : PortId) (slot track gain ramp : Nat) (list : List Contribution) (s : State),
    roomSlotSetOk slot track gain ramp list = true → slot < s.scene.roomSlots.length →
    Takable p (.roomSlotSet slot track gain ramp list) s →
    Completes (.roomSlotSet p slot track gain ramp list) s fun t =>
      let old := s.scene.roomSlots.getD slot RoomSlot.reset
      ∃ new : RoomSlot,
        t = { s.withPortsOf t with scene := { s.scene with roomSlots := s.scene.roomSlots.set slot new } } ∧
        Answered p .ok 0x33 [] s t ∧ new.active = true ∧ new.track = track ∧
        (new.list.map Contribution.bus).Pairwise (· < ·) ∧
        new.list.Perm (list.map fun c => { c with weight := min c.weight 32768 }) ∧
        new.ramp = (if ramp = 0 then ⟨gain, gain, 0, true⟩
          else ⟨if old.active = true then old.ramp.current else 0, gain, ramp, true⟩)

/-- ROOM_SLOT_GAIN changes an ACTIVE slot's gain ramp and is NOT_FOUND on a FREE one; ROOM_SLOT_CLEAR frees an ACTIVE slot
at once; both leave every other slot and value (R76, R91). -/
def Obligations.RoomSlotGainAndClear : Prop :=
  (∀ (p : PortId) (slot gain ramp : Nat) (s : State), slot ≤ 7 → gain ≤ 65535 → ramp ≤ 255 →
    slot < s.scene.roomSlots.length → Takable p (.roomSlotGain slot gain ramp) s →
    Completes (.roomSlotGain p slot gain ramp) s fun t =>
      let old := s.scene.roomSlots.getD slot RoomSlot.reset
      let gained : RoomSlot :=
        { old with ramp := if ramp = 0 then ⟨gain, gain, 0, true⟩ else ⟨old.ramp.current, gain, ramp, true⟩ }
      if old.active = true then
        t = { s.withPortsOf t with scene := { s.scene with roomSlots := s.scene.roomSlots.set slot gained } } ∧
        Answered p .ok 0x34 [] s t
      else t = s.withPortsOf t ∧ Answered p .notFound 0x34 [] s t) ∧
  ∀ (p : PortId) (slot : Nat) (s : State), slot ≤ 7 → slot < s.scene.roomSlots.length →
    Takable p (.roomSlotClear slot) s →
    Completes (.roomSlotClear p slot) s fun t =>
      let old := s.scene.roomSlots.getD slot RoomSlot.reset
      Answered p .ok 0x35 [] s t ∧
      let freed : RoomSlot := ⟨false, old.track, ⟨0, 0, 0, true⟩, []⟩
      if old.active = true then
        t = { s.withPortsOf t with scene := { s.scene with roomSlots := s.scene.roomSlots.set slot freed } }
      else t = s.withPortsOf t

/-- SET_PROGRAMME_LEVEL and SET_MASTER_LEVEL change their level's ramp to the clamped level, at once with a ramp of 0, and
are never refused for their values; the PROGRAMME_LEVEL cue action makes the same change, whichever port submitted it.
Each answers OK and leaves everything else (R129). MUTE_GROUP sets its group's state and answers OK; a group above 3, or a
state byte that is neither on nor off, is refused BAD_ARGUMENT; the MUTE_GROUP cue action makes the same change (R130). -/
def Obligations.RoomStateSet : Prop :=
  ((∀ (p : PortId) (level ramp : Nat) (s : State), Takable p (.setProgrammeLevel level ramp) s →
    Completes (.setProgrammeLevel p level ramp) s fun t =>
      t = { s.withPortsOf t with room := { s.room with programme :=
        if ramp = 0 then ⟨min level 32768, min level 32768, 0, true⟩
        else ⟨s.room.programme.current, min level 32768, ramp, true⟩ } } ∧ Answered p .ok 0x30 [] s t) ∧
  ∀ (p : PortId) (level ramp : Nat) (s : State), Takable p (.setMasterLevel level ramp) s →
    Completes (.setMasterLevel p level ramp) s fun t =>
      t = { s.withPortsOf t with room := { s.room with master :=
        if ramp = 0 then ⟨min level 32768, min level 32768, 0, true⟩
        else ⟨s.room.master.current, min level 32768, ramp, true⟩ } } ∧ Answered p .ok 0x31 [] s t) ∧
  (∀ (p : PortId) (group : Nat) (on : Bool) (s : State), group ≤ 3 → Takable p (.muteGroup group on) s →
    Completes (.muteGroup p group on) s fun t =>
      t = { s.withPortsOf t with room := { s.room with groups := s.room.groups.set group on } } ∧
        Answered p .ok 0x32 [] s t) ∧
  (∀ level ramp : Nat, level ≤ 65535 → ramp ≤ 255 →
    checkRequest .C (.setProgrammeLevel level ramp) = .pass (.setProgrammeLevel level ramp) ∧
      checkRequest .C (.setMasterLevel level ramp) = .pass (.setMasterLevel level ramp)) ∧
  (∀ (p : PortId) (level ramp : Nat) (s : State),
    s.cueAction p (.programmeLevel level ramp) = ({ s with room := { s.room with programme :=
      if ramp = 0 then ⟨min level 32768, min level 32768, 0, true⟩
      else ⟨s.room.programme.current, min level 32768, ramp, true⟩ } }, none)) ∧
  (∀ (group : Nat) (on : Bool), checkRequest .C (.muteGroup group on) =
    if group ≤ 3 then .pass (.muteGroup group on) else .fail .badArgument 0x32) ∧
  (∀ group state check : Byte, check = 0x32 ^^^ 0x02 ^^^ group ^^^ state →
    checkFrame .C [0xA5, 0x32, 0x02, group, state, check] =
      if group.toNat ≤ 3 ∧ state.toNat ≤ 1 then .pass (.muteGroup group.toNat (state.toNat = 1))
      else .fail .badArgument 0x32) ∧
  ∀ (p : PortId) (group : Nat) (on : Bool) (s : State),
    s.cueAction p (.muteGroup group on) = ({ s with room := { s.room with groups := s.room.groups.set group on } }, none)

/-- ROOM_PUSH saves every target under its owner, then changes the levels that are present, and answers OK with the new
depth; at 8 entries it is FULL and changes nothing (R131, R132). -/
def Obligations.RoomPushRuns : Prop :=
  ∀ (p : PortId) (programme master : Option Nat) (ramp : Nat) (s : State), Takable p (.roomPush programme master ramp) s →
    Completes (.roomPush p programme master ramp) s fun t =>
      let changed : Option Nat → Ramp → Ramp := fun level x =>
        match level with
        | none => x
        | some v => if ramp = 0 then ⟨min v 32768, min v 32768, 0, true⟩ else ⟨x.current, min v 32768, ramp, true⟩
      if s.room.stack.length < 8 then
        t = { s.withPortsOf t with room :=
          { s.room with
            programme := changed programme s.room.programme, master := changed master s.room.master,
            stack := s.room.stack ++ [⟨p, s.room.programme.target, s.room.master.target,
              s.scene.roomSlots.map fun x => x.ramp.target, s.room.groups⟩] } } ∧
        Answered p .ok 0x18 [BitVec.ofNat 8 (s.room.stack.length + 1)] s t
      else t = s.withPortsOf t ∧ Answered p .full 0x18 [] s t

/-- ROOM_POP of an entry that the port may take removes it and restores every saved target that differs from the present
one, with the pop's ramp, and the mute groups; it answers OK with the new depth, and port C's pop of a server's entry
raises OVERLAY_TAKEN at the owner; EMPTY and NOT_OWNER change nothing (R133, R134). -/
def Obligations.RoomPopRuns : Prop :=
  ∀ (p : PortId) (ramp : Nat) (s : State), Takable p (.roomPop ramp) s →
    Completes (.roomPop p ramp) s fun t =>
      match s.room.stack.getLast? with
      | none => t = s.withPortsOf t ∧ Answered p .empty 0x19 [] s t
      | some e =>
        if p = e.owner ∨ p = .C then
          let restored : Nat → Ramp → Ramp := fun v x =>
            if x.target = v then x else if ramp = 0 then ⟨v, v, 0, true⟩ else ⟨x.current, v, ramp, true⟩
          t = { s.withPortsOf t with
            room := ⟨restored e.programme s.room.programme, restored e.master s.room.master, e.groups,
              s.room.stack.dropLast⟩,
            scene := { s.scene with roomSlots := s.scene.roomSlots.mapIdx fun i x =>
              { x with ramp := restored (e.slotTargets.getD i x.ramp.target) x.ramp } } } ∧
          (∀ q, t.port q =
            (if q = p then (s.port p).answered .ok 0x19 [BitVec.ofNat 8 s.room.stack.dropLast.length]
            else if q = e.owner then (s.port q).raise .overlayTaken else s.port q))
        else t = s.withPortsOf t ∧ Answered p .notOwner 0x19 [] s t

/-- CUE_ADD of an acceptable cue: DUPLICATE when the port holds the id, FULL at 48 cues, and otherwise the cue joins as
the newest with its levels clamped, its flag false and its mark set; answered OK (R117, R121). -/
def Obligations.CueAddRuns : Prop :=
  ∀ (p : PortId) (c : CueSpec) (s : State), cueOk c = true → Takable p (.cueAdd c) s →
    Completes (.cueAdd p c) s fun t =>
      if ∃ d ∈ s.cueing.cues, d.port = p ∧ d.id = c.id then t = s.withPortsOf t ∧ Answered p .duplicate 0x10 [] s t
      else if 48 ≤ s.cueing.cues.length then t = s.withPortsOf t ∧ Answered p .full 0x10 [] s t
      else
        t = { s.withPortsOf t with cueing := { s.cueing with cues := s.cueing.cues ++
          [⟨p, c.id, c.reel, c.frame, c.offset, c.mode,
            match c.action with
            | .programmeLevel level ramp => .programmeLevel (min level 32768) ramp
            | .roomPush programme master ramp =>
              .roomPush (programme.map fun v => min v 32768) (master.map fun v => min v 32768) ramp
            | a => a, false, 0, true⟩] } } ∧ Answered p .ok 0x10 [] s t

/-- CUE_CANCEL removes the requesting port's cue with the id, answered OK, or answers NOT_FOUND; another port's cue with
the same id is left alone (R122). -/
def Obligations.CueCancelRuns : Prop :=
  ∀ (p : PortId) (id : Nat) (s : State), Takable p (.cueCancel id) s →
    Completes (.cueCancel p id) s fun t =>
      if ∃ d ∈ s.cueing.cues, d.port = p ∧ d.id = id then
        t = { s.withPortsOf t with cueing := { s.cueing with
          cues := s.cueing.cues.filter fun d => !(decide (d.port = p) && decide (d.id = id)) } } ∧
        Answered p .ok 0x11 [] s t
      else t = s.withPortsOf t ∧ Answered p .notFound 0x11 [] s t

/-- A segment's coverage is held against the cues in list order: a cue added at this block end is skipped; one whose match
set is met while its flag is false fires, then leaves the list if it is ONCE and stays with its flag true and its fire
count raised if it is REPEAT; every other cue's flag becomes whether its set was met. A cue fires so: its log entry with
the block count and the outcome joins its port's log, and CUE_FIRED is raised there alone; a refused overlay action
changes nothing else but the port's counter and CUE_ACTION_REFUSED (R118 to R120, R123). A ROOM_PUSH or ROOM_POP action
acts on the overlay stack as its port's own command does, FULL, EMPTY and NOT_OWNER being its refusals; NOTIFY does
nothing more (R119, R120, R132 to R134). -/
def Obligations.CueFires : Prop :=
  (∀ (p : PortId) (programme master : Option Nat) (ramp : Nat) (s : State),
    let changed : Option Nat → Ramp → Ramp := fun level x =>
      match level with
      | none => x
      | some v => if ramp = 0 then ⟨min v 32768, min v 32768, 0, true⟩ else ⟨x.current, min v 32768, ramp, true⟩
    s.cueAction p (.roomPush programme master ramp) =
      if s.room.stack.length < 8 then
        ({ s with room := { s.room with
          programme := changed programme s.room.programme, master := changed master s.room.master,
          stack := s.room.stack ++ [⟨p, s.room.programme.target, s.room.master.target,
            s.scene.roomSlots.map fun x => x.ramp.target, s.room.groups⟩] } }, none)
      else (s, some .full)) ∧
  (∀ (p : PortId) (ramp : Nat) (s : State), s.cueAction p (.roomPop ramp) =
    match s.room.stack.getLast? with
    | none => (s, some .empty)
    | some e =>
      let restored : Nat → Ramp → Ramp := fun v x =>
        if x.target = v then x else if ramp = 0 then ⟨v, v, 0, true⟩ else ⟨x.current, v, ramp, true⟩
      let popped : State := { s with
        room := ⟨restored e.programme s.room.programme, restored e.master s.room.master, e.groups,
          s.room.stack.dropLast⟩,
        scene := { s.scene with roomSlots := s.scene.roomSlots.mapIdx fun i x =>
          { x with ramp := restored (e.slotTargets.getD i x.ramp.target) x.ramp } } }
      if p = e.owner then (popped, none)
      else if p = .C then (popped.setPort e.owner ((s.port e.owner).raise .overlayTaken), none)
      else (s, some .notOwner)) ∧
  (∀ (p : PortId) (s : State), s.cueAction p .notify = (s, none)) ∧
  (∀ (c : Cue) (s : State),
    let effect := s.cueAction c.port c.action
    let entry : LogEntry := ⟨c.id, c.mode, actionKind c.action, s.blockCount, effect.2⟩
    let x := effect.1.port c.port
    (s.fire c).port c.port =
      (match effect.2 with
        | none => { x with log := keepLast 16 (x.log ++ [entry]) }.raise .cueFired
        | some _ =>
          { { x with log := keepLast 16 (x.log ++ [entry]) }.raise .cueFired with
            cuesRefused := min (x.cuesRefused + 1) 4294967295 }.raise .cueActionRefused) ∧
    (∀ q, q ≠ c.port → (s.fire c).port q = effect.1.port q) ∧ s.fire c = effect.1.withPortsOf (s.fire c) ∧
    (effect.2 ≠ none → effect.1 = s) ∧
    (effect.2 = none ∨ effect.2 = some .full ∨ effect.2 = some .empty ∨ effect.2 = some .notOwner)) ∧
  ∀ (h : ShowPos) (n : Nat) (s : State),
    let fires : Cue → Bool := fun c => !c.added && c.meets h n && !c.matched
    let fired := (s.cueing.cues.filter fires).foldl (fun s c => s.fire c) s
    let kept : Cue → Option Cue := fun c =>
      if c.added = true then some c
      else if fires c = true then
        (match c.mode with
          | .once => none
          | .repeats => some { c with matched := true, fires := min (c.fires + 1) 65535 })
      else some { c with matched := c.meets h n }
    s.evaluateSegment h n = { fired with cueing := { s.cueing with cues := s.cueing.cues.filterMap kept } }

/-- A record of the closing programme's queue is tested against the reasons of R83 in their order; a rejected one changes
only its reason's counter and raises METADATA_REJECT at the link's server port and port C; one that passes acts on its
own slot as its kind says, with its list sorted and the pool accounted for (R83 to R88). At a block end in RUN the slots
are stepped, and the records at the front of the closing programme's queue whose tags are at or below its read index as
the ending block left it are then applied in queue order, with the track count of the frame at that index, each to what
the ones before it left, and leave the queue; none is applied without a closing programme, without a read position, or
with one still fresh from a lock (R79 to R83). An index without a stamp counts no tracks by the model's reading
(log 26). -/
def Obligations.RecordsCheckedAndApplied : Prop :=
  (∀ (order : List BlockEvent) (s : State), s.startup = .run → s.blockEndOpen = false → NoTakes order s →
    Completes (.blockEnd order) s fun t =>
      let stepped : Ramp → Ramp := fun x =>
        if x.remaining = 0 ∨ x.changed = true then x
        else ⟨((x.current : Int) + ((x.target : Int) - x.current).tdiv x.remaining).toNat, x.target,
          x.remaining - 1, x.changed⟩
      let slots := s.scene.slots.map fun x =>
        if x.state = .releasing ∧ x.ramp.remaining = 1 ∧ x.ramp.changed = false then
          ⟨.free, x.track, ⟨0, 0, 0, false⟩, []⟩
        else { x with ramp := stepped x.ramp }
      let scene : Scene :=
        ⟨slots, s.scene.free + entriesHeld s.scene.slots - entriesHeld slots, s.scene.roomSlots⟩
      let closing : Option ProgLink :=
        match s.sel.inForce with | .idle => none | .on x => some x | .crossfade _ inc _ => some inc
      let reader : ProgLink → Option FrameIndex := fun x =>
        if (s.link (progLink x)).fresh = .lock then none else (s.link (progLink x)).readPos.map ReadPos.index
      (∀ x, closing = some x → reader x = none →
        (t.link (progLink x)).queue = (s.link (progLink x)).queue ∧
        (t.link (progLink x)).counters = (s.link (progLink x)).counters) ∧
      (closing.bind reader = none → t.scene.slots = scene.slots ∧ t.scene.free = scene.free) ∧
      ∀ x n, closing = some x → reader x = some n →
        let y := s.link (progLink x)
        let isDue : Tagged → Bool := fun r => decide ((n - r.tag).toNat < 2147483648)
        let tracks := ((y.stamps.find? fun σ => decide ((n - σ.first).toNat < 32)).map Stamp.tracks).getD 0
        let result := (y.queue.takeWhile isDue).foldl
          (fun (acc : Scene × List Reject) r =>
            match acc.1.reject tracks r.body with
            | none => (acc.1.act r.body, acc.2)
            | some why => (acc.1, acc.2 ++ [why])) (scene, [])
        t.scene.slots = result.1.slots ∧ t.scene.free = result.1.free ∧
        (t.link (progLink x)).queue = y.queue.dropWhile isDue ∧
        (t.link (progLink x)).counters = { y.counters with
          rejected := result.2.foldl (fun counts why => counts.modify why.place fun n => min (n + 1) 4294967295)
            y.counters.rejected } ∧
        (result.2 ≠ [] → (t.port (serverPort (progLink x))).isRaised .metadataReject = true ∧
          (t.port .C).isRaised .metadataReject = true)) ∧
  ∀ (x : ProgLink) (tracks : Nat) (s : State) (tag : FrameIndex) (r : MetaRecord),
    let t := s.applyRecord x tracks ⟨tag, r⟩
    let listFault : Nat → List Contribution → Option Reject := fun slot list =>
      if ∃ c ∈ list, 63 < c.bus then some .busRange
      else if ¬ (list.map (·.bus)).Nodup then some .busDuplicate
      else if ∃ c ∈ list, 32768 < c.weight then some .weightRange
      else if s.scene.free +
          (if (s.scene.slot slot).state = .free then 0 else (s.scene.slot slot).list.length) < list.length then
        some .poolShort
      else none
    let others : Nat → Prop := fun slot => ∀ i, i ≠ slot → t.scene.slot i = s.scene.slot i
    let reason : Option Reject :=
      match r with
      | .slotSet slot track _ _ list =>
        if 127 < slot then some .slotRange else if tracks ≤ track then some .trackRange else listFault slot list
      | .slotGain slot _ _ =>
        if 127 < slot then some .slotRange
        else if (s.scene.slot slot).state = .free then some .slotFree else none
      | .slotMove slot list =>
        if 127 < slot then some .slotRange
        else if (s.scene.slot slot).state = .free then some .slotFree else listFault slot list
      | .slotRelease slot _ =>
        if 127 < slot then some .slotRange
        else if (s.scene.slot slot).state = .free then some .slotFree else none
      | .sceneRelease _ => none
    match reason with
    | some why =>
      t = (s.withPortsOf t).withLinksOf t ∧ (∀ k, k ≠ progLink x → t.link k = s.link k) ∧
      t.link (progLink x) = { s.link (progLink x) with counters := { (s.link (progLink x)).counters with
        rejected := (s.link (progLink x)).counters.rejected.modify why.place fun n => min (n + 1) 4294967295 } } ∧
      ∀ q, t.port q =
        (if q = .C ∨ q = serverPort (progLink x) then (s.port q).raise .metadataReject else s.port q)
    | none =>
      t = { s with scene := t.scene } ∧ t.scene.roomSlots = s.scene.roomSlots ∧
      (SceneLaw s →
        match r with
        | .slotSet slot track gain ramp list =>
          (t.scene.slot slot).state = .active ∧ (t.scene.slot slot).track = track ∧
          (t.scene.slot slot).list.Perm list ∧ ((t.scene.slot slot).list.map (·.bus)).Pairwise (· < ·) ∧
          (t.scene.slot slot).ramp =
            (if ramp = 0 then ⟨gain, gain, 0, true⟩ else ⟨(s.scene.slot slot).ramp.current, gain, ramp, true⟩) ∧
          t.scene.free + list.length = s.scene.free + (s.scene.slot slot).list.length ∧ others slot
        | .slotGain slot gain ramp =>
          t.scene.slot slot = { s.scene.slot slot with
            state := .active, ramp := if ramp = 0 then ⟨gain, gain, 0, true⟩
              else ⟨(s.scene.slot slot).ramp.current, gain, ramp, true⟩ } ∧ t.scene.free = s.scene.free ∧ others slot
        | .slotMove slot list =>
          (t.scene.slot slot).list.Perm list ∧ ((t.scene.slot slot).list.map (·.bus)).Pairwise (· < ·) ∧
          t.scene.slot slot = { s.scene.slot slot with list := (t.scene.slot slot).list } ∧
          t.scene.free + list.length = s.scene.free + (s.scene.slot slot).list.length ∧ others slot
        | .slotRelease slot ramp =>
          others slot ∧
          if ramp = 0 then
            t.scene.slot slot = ⟨.free, (s.scene.slot slot).track, ⟨0, 0, 0, false⟩, []⟩ ∧
              t.scene.free = s.scene.free + (s.scene.slot slot).list.length
          else
            t.scene.slot slot = { s.scene.slot slot with
              state := .releasing, ramp := ⟨(s.scene.slot slot).ramp.current, 0, ramp, true⟩ } ∧
              t.scene.free = s.scene.free
        | .sceneRelease ramp =>
          ∀ i, i < 128 → t.scene.slot i =
            (if (s.scene.slot i).state = .active then
              if ramp = 0 then ⟨.free, (s.scene.slot i).track, ⟨0, 0, 0, false⟩, []⟩
              else { s.scene.slot i with
                state := .releasing, ramp := ⟨(s.scene.slot i).ramp.current, 0, ramp, true⟩ }
            else s.scene.slot i))

/-- The show position of an ending block (R111, R113 to R118): a coverage of `n` positions from `h` on meets a cue's match
set exactly when one of those positions has the enabled reel, frame and offset; the frames of a stamp that a reader
passed; the PLAY frames that a stamp adds to a segment; a segment's coverage from the high-water mark to its last PLAY
frame, which moves the mark beyond that, or is empty; a marked stamp, whose LOCATE ends the segment before it, clears the
flags, sets the mark to its position and is cleared itself; a block that is evaluated only when its start index is the
closing programme's and lies 1 to 2^31 − 1 frames before the end index, with a LOCATE of the selector applied after
it; and, at a block end at which the programme goes on, that evaluation as what the block end does to the cue list. The
next start index is stated with the close of a block end. That a LOCATE after a slip at the open block end stands at the
index from before it is the model's choice (log 4). -/
def Obligations.CueSetMetExactly : Prop :=
  (∀ (c : Cue) (h : ShowPos) (n : Nat), h.lin < 131072000 → (∀ f ∈ c.frame, f ≤ 65535) → (∀ o ∈ c.offset, o ≤ 1999) →
    (c.meets h n = true ↔
      ∃ k, k < n ∧ (∀ r ∈ c.reel, r = h.reel) ∧ (∀ f ∈ c.frame, (h.lin + k) % 131072000 / 2000 = f) ∧
        ∀ o ∈ c.offset, (h.lin + k) % 131072000 % 2000 = o)) ∧
  (∀ (σ : Stamp) (start : FrameIndex) (n : Nat), n < 2147483648 →
    let passed : Nat → Prop := fun k => (σ.first + BitVec.ofNat 32 k - start).toNat < n
    match passedIn σ start n with
    | none => ∀ k, k < 32 → ¬ passed k
    | some (a, b) => a ≤ b ∧ b < 32 ∧ ∀ k, k < 32 → (passed k ↔ a ≤ k ∧ k ≤ b)) ∧
  (∀ (σ : Stamp) (a b : Nat) (g : Segment),
    let first : ShowPos := ⟨σ.pos.reel, (σ.pos.lin + a) % 131072000⟩
    let last : ShowPos := ⟨σ.pos.reel, (σ.pos.lin + b) % 131072000⟩
    Segment.extend σ none g = g ∧ (σ.transport = .hold → Segment.extend σ (some (a, b)) g = g) ∧
    (σ.transport = .play → Segment.extend σ (some (a, b)) g =
      match g with | none => some (first, last) | some (begun, _) => some (begun, last))) ∧
  (∀ s : State, s.closeSegment none = s) ∧
  (∀ (first q : ShowPos) (s : State), q.lin < 131072000 →
    let h := s.cueing.hwm.getD first
    (∀ d, d < 65536000 → h.lin < 131072000 → q.reel = h.reel → (h.lin + d) % 131072000 = q.lin →
      s.closeSegment (some (first, q)) =
        ({ s with cueing := { s.cueing with
          hwm := some ⟨q.reel, (q.lin + 1) % 131072000⟩ } } : State).evaluateSegment h (d + 1)) ∧
    (h.lin < 131072000 → (q.reel ≠ h.reel ∨ ∀ d, d < 65536000 → (h.lin + d) % 131072000 ≠ q.lin) →
      s.closeSegment (some (first, q)) = { s with cueing := { s.cueing with hwm := some h } })) ∧
  (∀ (l : LinkId) (start : FrameIndex) (n : Nat) (s : State) (g : Segment) (σ : Stamp),
    let located : State → State := fun t =>
      ({ t with cueing := { t.cueing with
          cues := t.cueing.cues.map fun c => { c with matched := false }, hwm := some σ.pos } } : State).setLink l
        { t.link l with
          stamps := (t.link l).stamps.map fun τ => if τ.first = σ.first then { τ with mark := false } else τ }
    passStamp l start n (s, g) σ =
      if σ.mark = true ∧ (σ.first - start).toNat < n then
        (located (s.closeSegment g), Segment.extend σ (passedIn σ start n) none)
      else (s, Segment.extend σ (passedIn σ start n) g)) ∧
  (∀ (l : LinkId) (start : FrameIndex) (n : Nat) (s : State),
    let passed := (s.link l).stamps.foldl (passStamp l start n) (s, none)
    s.passFrames l start n = passed.1.closeSegment passed.2) ∧
  (∀ (stop : Option (ProgLink × FrameIndex)) (s : State),
    let evaluated : State :=
      match s.cueing.start, stop with
      | some (x, start), some (y, stop) =>
        if x = y ∧ (s.link (progLink x)).readPos ≠ none ∧ 1 ≤ (stop - start).toNat ∧
            (stop - start).toNat < 2147483648 then s.passFrames (progLink x) start (stop - start).toNat
        else s
      | _, _ => s
    let done : State := { evaluated with cueing := { evaluated.cueing with workDone := true } }
    s.showWork stop = if evaluated.cueing.locateHeld = true then done.applyLocate else done) ∧
  (∀ s : State,
    let at_ : Option ShowPos :=
      match s.opening with
      | none => none
      | some x => s.readerAt x
    s.applyLocate = { s with cueing := { s.cueing with
      cues := s.cueing.cues.map fun c => { c with matched := false }, hwm := at_, locateHeld := false } }) ∧
  ∀ (order : List BlockEvent) (s : State) (x : ProgLink), s.startup = .run → s.blockEndOpen = false → NoTakes order s →
    s.sel.cur = .on x → s.sel.inForce = .on x → s.sel.primary = x → s.fit x = true →
    Completes (.blockEnd order) s fun t =>
      t.cueing = (s.showWork ((s.link (progLink x)).readPos.map fun p => (x, p.index))).cueing

/-! ### Requests: output settings -/

/-- SET_BUS_TRIM, SET_BUS_DISTANCE, SET_AIR_TEMP and SET_MUTE_GROUP each set their value, clamped where the rule clamps,
answer OK and leave everything else; distances and temperature call for new delays at this block end (R142, R143,
R146). -/
def Obligations.OutputSettingsSet : Prop :=
  (∀ (p : PortId) (bus trim : Nat) (s : State), bus ≤ 63 → trim ≤ 65535 → Takable p (.setBusTrim bus trim) s →
    Completes (.setBusTrim p bus trim) s fun t =>
      t = { s.withPortsOf t with buses := s.buses.modify bus fun b => { b with trim := trim } } ∧
        Answered p .ok 0x38 [] s t) ∧
  (∀ (p : PortId) (bus distance : Nat) (s : State), bus ≤ 63 → Takable p (.setBusDistance bus distance) s →
    Completes (.setBusDistance p bus distance) s fun t =>
      t = { s.withPortsOf t with
        buses := s.buses.modify bus fun b => { b with distance := min distance 60000 }, delayDirty := true } ∧
        Answered p .ok 0x39 [] s t) ∧
  (∀ (p : PortId) (temp : Int) (s : State), Takable p (.setAirTemp temp) s →
    Completes (.setAirTemp p temp) s fun t =>
      t = { s.withPortsOf t with airTemp := max (-10) (min 45 temp), delayDirty := true } ∧
        Answered p .ok 0x3A [] s t) ∧
  ∀ (p : PortId) (group : Nat) (list : List Nat) (s : State), group ≤ 3 → list.length ≤ 64 → (∀ b ∈ list, b ≤ 63) →
    Takable p (.setMuteGroup group list) s →
    Completes (.setMuteGroup p group list) s fun t =>
      ∃ set : BitVec 64, (∀ b, b < 64 → set.getLsbD b = decide (b ∈ list)) ∧
        t = { s.withPortsOf t with members := s.members.set group set } ∧ Answered p .ok 0x3B [] s t

/-! ### Requests: reads, counters and notices -/

/-- GET_STATUS, GET_POSITION, GET_SLOT and CUE_LIST are answered OK with a copy that follows the changes of the block end
until it closes, and change nothing that they read; the close forms the copy from the state that it leaves, so after
every change taken at the block end; a GET_STATUS that waits in LOADING is answered so too (R94, R124, R125, R161, R174; that
the copy follows until the close is the model's reading,
log 7). The bytes of the four answers: the links (R19, R43), the selector and the slots (R71, R94), the room state and the
overlay stack (R137), the buses (R150), the settings and the reference, store and start-up states (R150, R170), a slot
(R94), the position (R125) and the port's own cues (R124), in the layouts of R164. A high-water mark that is none is sent
with zeros by the model's choice (log 34). -/
def Obligations.ReadsAnswered : Prop :=
  (∀ (p : PortId) (s : State),
    let Read : Instr → Request → List Byte → Prop := fun c r payload => Takable p r s →
      Completes c s fun t => t = s.withPortsOf t ∧
        OnlyPort p
          { s.port p with
            waiting := none, due := false, response := some ⟨.ok, requestCode r, payload⟩, live := some r } s t
    (∀ sect, sect ≤ 7 → Read (.getStatus p sect) (.getStatus sect) (s.statusPayload sect)) ∧
    (∀ sect, sect ≤ 7 → TakableLoading p (.getStatus sect) s → Completes (.getStatus p sect) s fun t =>
      t = s.withPortsOf t ∧ OnlyPort p
        { s.port p with
          waiting := none, due := false, response := some ⟨.ok, 0x01, s.statusPayload sect⟩,
          live := some (.getStatus sect) } s t) ∧
    Read (.getPosition p) .getPosition s.positionPayload ∧
    (∀ kind slot, (kind = .programme → slot ≤ 127) → (kind = .room → slot ≤ 7) →
      Read (.getSlot p kind slot) (.getSlot kind slot) (s.slotPayload kind slot)) ∧
    ∀ rank, rank ≤ 47 → Read (.cueList p rank) (.cueList rank) (s.cueListPayload p rank)) ∧
  (∀ (p : PortId) (r : Request) (s : State), s.blockEndOpen = true → (∀ q, (s.port q).due = false) →
    (s.port p).live = some r →
    let t := s.closeBlockEnd
    let Left : List Byte → Prop := fun payload =>
      t.port p = { s.port p with response := some ⟨.ok, requestCode r, payload⟩, live := none }
    match r with
    | .getStatus sect => Left (t.statusPayload sect)
    | .getPosition => Left t.positionPayload
    | .getSlot kind slot => Left (t.slotPayload kind slot)
    | .cueList rank => Left (t.cueListPayload p rank)
    | _ => True) ∧
  ∀ s : State,
    (let linkBytes : Link → List Byte := fun x =>
      (match x.state with
        | .disabled => [0] | .search => [1] | .acquire => [2] | .locked => [3] | .holdover => [4]) ++
      wire 1 x.run ++ [x.seq] ++ wire 1 x.tracks ++ wireTransport x.transport ++
      (match x.health with | .ok => [0] | .degraded => [1] | .fault => [2]) ++
      (match x.pull with | .unpulled => [0] | .down => [1] | .up => [2]) ++
      wire 1 (match x.readPos with | none => 0 | some p => (x.written - p.index).toNat) ++
      wireSigned 4 x.measuredOffset ++ wireSigned 4 x.taken ++ wireBool x.measured ++
      wireBool (x.departing.isSome || x.fadeIn)
    s.statusPayload 0 = linkBytes s.linkA ++ linkBytes s.linkB ++ linkBytes s.linkC) ∧
    (let stateByte : List Byte := match s.sel.cur with | .idle => [0] | .on _ => [1] | .crossfade _ _ _ => [2]
    let programme : Option ProgLink :=
      match s.sel.cur with | .idle => none | .on x => some x | .crossfade _ inc _ => some inc
    let outgoing : Option ProgLink := match s.sel.cur with | .crossfade out _ _ => out | _ => none
    let stepNumber : Nat := match s.sel.cur with | .crossfade _ _ k => k | _ => 0
    let count : SlotState → Nat := fun st => s.scene.slots.countP fun x => decide (x.state = st)
    s.statusPayload 1 =
      stateByte ++ wireLink programme ++ wireLink outgoing ++ wire 1 stepNumber ++ wireLink (some s.sel.primary) ++
      wireBool s.sel.autoRevert ++ wireBool s.sel.manualHold ++
      (match s.sel.align with | .aligned => [0] | .unaligned => [1] | .notReady => [2]) ++ wire 2 s.sel.revert ++
      wire 1 (count .free) ++ wire 1 (count .active) ++ wire 1 (count .releasing) ++ wire 2 s.scene.free ++
      (s.scene.roomSlots.flatMap fun x => wireSlotState (if x.active = true then .active else .free)) ++
      wire 1 s.linkA.queue.length ++ wire 1 s.linkB.queue.length ∧
    s.positionPayload =
      wireBool s.cueing.start.isSome ++
      (let found : Option (FrameIndex × Stamp) :=
        match s.cueing.start with
        | none => none
        | some (x, i) =>
          ((s.link (progLink x)).stamps.find? fun σ => decide ((i - σ.first).toNat < 32)).map fun σ => (i, σ)
      match found with
        | none => wire 1 0 ++ wire 2 0 ++ wire 2 0 ++ wireTransport .hold
        | some (i, σ) =>
          let lin := match σ.transport with
            | .hold => σ.pos.lin
            | .play => (σ.pos.lin + (i - σ.first).toNat) % 131072000
          wire 1 σ.pos.reel ++ wire 2 (lin / 2000) ++ wire 2 (lin % 2000) ++ wireTransport σ.transport) ++
      (match s.cueing.hwm with
        | none => wireBool false ++ wire 1 0 ++ wire 2 0 ++ wire 2 0
        | some h => wireBool true ++ wire 1 h.reel ++ wire 2 (h.lin / 2000) ++ wire 2 (h.lin % 2000)) ++
      wire 4 s.blockCount.toNat ++ stateByte ++ wireLink programme ++ wire 1 s.cueing.cues.length) ∧
    s.statusPayload 2 =
      wireRamp s.room.programme ++ wireRamp s.room.master ++ wireGroups s.room.groups ++
      (s.scene.roomSlots.flatMap fun x => wire 2 x.ramp.target) ++ wire 1 s.room.stack.length ++
      (s.room.stack.flatMap fun e =>
        wirePort e.owner ++ wire 2 e.programme ++ wire 2 e.master ++ e.slotTargets.flatMap (wire 2) ++
          wireGroups e.groups) ∧
    (∀ g, g ≤ 3 → s.buses.length = 64 → s.statusPayload (3 + g) = (List.range 16).flatMap fun i =>
      let b := s.buses.getD (16 * g + i) Bus.reset
      wire 2 b.trim ++ wire 2 b.distance ++ wireRamp b.mute ++ wire 2 b.computed ++ wire 2 b.applied ++
        wireBool b.limit) ∧
    s.statusPayload 7 =
      wireSigned 1 s.airTemp ++ (s.members.flatMap fun m => wire 8 m.toNat) ++
      (match s.ref.state with | .absent => [0] | .acquiring => [1] | .locked => [2] | .hold => [3]) ++
      wireBool s.store.valid ++ wireBool s.store.writing.isSome ++
      (match s.store.result with | .untried => [0] | .done => [1] | .failed => [2]) ++
      (match s.startup with | .off => [0] | .reset => [0] | .loading => [1] | .run => [2]) ∧
    (∀ slot, s.slotPayload .programme slot =
      let x := s.scene.slots.getD slot Slot.reset
      wireSlotState x.state ++ wire 1 x.track ++ wireRamp x.ramp ++ wire 1 x.list.length ++ wireList x.list) ∧
    (∀ slot, s.slotPayload .room slot =
      let x := s.scene.roomSlots.getD slot RoomSlot.reset
      wireSlotState (if x.active = true then .active else .free) ++ wire 1 x.track ++ wireRamp x.ramp ++
        wire 1 x.list.length ++ wireList x.list) ∧
    ∀ (p : PortId) (rank : Nat), s.cueListPayload p rank =
      let own := s.cueing.cues.filter fun c => decide (c.port = p)
      wire 1 own.length ++ ((own.drop rank).take 12).flatMap fun c =>
        let arguments := (wireAction c.action).2
        wire 1 c.id ++ wire 1 ((if c.reel.isSome = true then 1 else 0) + (if c.frame.isSome = true then 2 else 0) +
          (if c.offset.isSome = true then 4 else 0)) ++
        wire 1 (c.reel.getD 0) ++ wire 2 (c.frame.getD 0) ++ wire 2 (c.offset.getD 0) ++ wireMode c.mode ++
        [(wireAction c.action).1] ++ arguments ++ List.replicate (6 - arguments.length) 0 ++ wireBool c.matched ++
        wire 2 c.fires

/-- GET_COUNTERS answers the section's counters, 4 bytes each, and changes none: the 15 counters of each link with the
three refused-action counters, or the overload counters of 32 buses (R162, R164); CLEAR_COUNTERS sets every link,
overload, clip and refused-action counter to 0 and leaves every other value (R163). -/
def Obligations.CountersReadAndCleared : Prop :=
  (∀ (p : PortId) (sect : Nat) (s : State), sect ≤ 2 → Takable p (.getCounters sect) s →
    Completes (.getCounters p sect) s fun t =>
      t = s.withPortsOf t ∧
      let linkCounters : Link → List Nat := fun x =>
        [x.counters.valid, x.counters.malformed, x.counters.concealed, x.counters.slips, x.counters.starved,
          x.counters.dropped] ++ x.counters.rejected ++ [x.counters.ignored, x.counters.rateFaults]
      let payload : List Byte :=
        if sect = 0 then
          (linkCounters s.linkA ++ linkCounters s.linkB ++ linkCounters s.linkC ++
            [(s.port .A).cuesRefused, (s.port .B).cuesRefused, (s.port .C).cuesRefused]).flatMap (wire 4)
        else if sect = 1 then (s.buses.take 32).flatMap fun b => wire 4 b.overload
        else (s.buses.drop 32).flatMap fun b => wire 4 b.overload
      Answered p .ok 0x02 payload s t) ∧
  ∀ (p : PortId) (s : State), Takable p .clearCounters s →
    Completes (.clearCounters p) s fun t =>
      t = { (s.withPortsOf t).withLinksOf t with buses := s.buses.map fun b => { b with overload := 0, clips := 0 } } ∧
      (∀ l, t.link l = { s.link l with counters := ⟨0, 0, 0, 0, 0, 0, [0, 0, 0, 0, 0, 0, 0], 0, 0⟩ }) ∧
      ∀ q, t.port q =
        (if q = p then { (s.port q).answered .ok 0x40 [] with cuesRefused := 0 } else { s.port q with cuesRefused := 0 })

/-- GET_METERS answers the port's 16 peaks and the clip counters of the group, for each bus 3 bytes and 2, and sets those
16 peaks to 0, leaving the port's other peaks and the other ports' (R107, R164). -/
def Obligations.MetersRead : Prop :=
  ∀ (p : PortId) (group : Nat) (s : State), group ≤ 3 → (s.port p).peaks.length = 64 → s.buses.length = 64 →
    Takable p (.getMeters group) s →
    Completes (.getMeters p group) s fun t =>
      t = s.withPortsOf t ∧
      let payload : List Byte := (List.range 16).flatMap fun i =>
        wire 3 ((s.port p).peaks.getD (16 * group + i) 0) ++
          wire 2 (s.buses.getD (16 * group + i) Bus.reset).clips
      OnlyPort p { (s.port p).answered .ok 0x03 payload with peaks := (t.port p).peaks } s t ∧
      (t.port p).peaks.length = 64 ∧
      ∀ i, (t.port p).peaks.getD i 0 =
        (if 16 * group ≤ i ∧ i < 16 * group + 16 then 0 else (s.port p).peaks.getD i 0)

/-- CUE_LOG answers the port's fired log, 8 bytes for each entry, and empties it; GET_NOTICES answers the pending set and
empties it, which releases the notice line. SET_NOTICE_MASK and SET_NOTICE_ENABLE set the port's mask (bits 11..0) and
enable and leave the pending set; the notice line is asserted exactly when the enable is on and an unmasked event is
pending (R123, R158, R160, R164, R167). That the log is answered and emptied as it stands when the request is taken is the
model's choice (log 37). -/
def Obligations.LogAndNotices : Prop :=
  ((∀ (p : PortId) (s : State), Takable p .cueLog s →
    Completes (.cueLog p) s fun t =>
      t = s.withPortsOf t ∧
        let payload : List Byte := wire 1 (s.port p).log.length ++ (s.port p).log.flatMap fun (e : LogEntry) =>
          wire 1 e.id ++ wireMode e.mode ++
          ((match e.kind with
            | .programmeLevel => [0] | .roomPush => [1] | .roomPop => [2] | .muteGroup => [3] | .notify => [4]) : List Byte) ++
          wire 4 e.block.toNat ++ ((match e.outcome with
            | none => [0] | some .full => [6] | some .empty => [7] | some .notOwner => [10] | some other => [other.byte]) : List Byte)
        OnlyPort p { (s.port p).answered .ok 0x13 payload with log := [] } s t) ∧
  ∀ (p : PortId) (s : State), Takable p .getNotices s →
    Completes (.getNotices p) s fun t =>
      t = s.withPortsOf t ∧
        OnlyPort p
          { (s.port p).answered .ok 0x06
              [BitVec.ofNat 8 ((s.port p).raised.toNat / 256), BitVec.ofNat 8 (s.port p).raised.toNat] with
            raised := 0 } s t ∧ (t.port p).noticeLine = false) ∧
  (∀ (p : PortId) (mask : BitVec 16) (s : State), Takable p (.setNoticeMask mask) s →
    Completes (.setNoticeMask p mask) s fun t =>
      t = s.withPortsOf t ∧ OnlyPort p { (s.port p).answered .ok 0x07 [] with mask := mask.setWidth 12 } s t) ∧
  (∀ (p : PortId) (on : Bool) (s : State), Takable p (.setNoticeEnable on) s →
    Completes (.setNoticeEnable p on) s fun t =>
      t = s.withPortsOf t ∧ OnlyPort p { (s.port p).answered .ok 0x08 [] with enable := on } s t) ∧
  ∀ x : Port, x.noticeLine = true ↔ x.enable = true ∧ ∃ n : Notice, x.isRaised n = true ∧ x.mask.getLsbD n.bit = false

/-! ### Store, reset and start-up -/

/-- STORE_SETTINGS starts a write of the current settings: WRITING, INVALID, answered OK; BUSY and no change while a write
runs (R171). That the memory holds no whole record while it is written is the model's choice (log 16). -/
def Obligations.StoreSettingsRuns : Prop :=
  ∀ (p : PortId) (s : State), Takable p .storeSettings s →
    Completes (.storeSettings p) s fun t =>
      if s.store.writing.isSome = true then t = s.withPortsOf t ∧ Answered p .busy 0x41 [] s t
      else
        t = { s.withPortsOf t with store := { s.store with
          memory := .torn, valid := false,
          writing := some ⟨s.sel.primary, s.sel.autoRevert, s.buses.map (·.trim), s.buses.map (·.distance), s.airTemp,
            s.members, s.room.programme.target, s.room.master.target⟩ } } ∧
        Answered p .ok 0x41 [] s t

/-- A write ends: VALID and DONE when the read-back agrees with the snapshot and its check, INVALID and FAILED otherwise,
with STORE_DONE at port C; without a write nothing happens (R170, R171). The check is that of R4 over the contents in the
order of the table of R170. The widths under the check, and what a failed write
leaves, are the model's choice (logs 15, 16 and 31). -/
def Obligations.StoreWriteEnds : Prop :=
  ∀ (readBack : SettingsRecord) (s : State),
    Completes (.storeWriteEnd readBack) s fun t =>
      match s.store.writing with
      | none => t = s
      | some v =>
        OnlyPort .C ((s.port .C).raise .storeDone) s t ∧
        if readBack = ⟨v, wireCheck (wireSettings v)⟩ then
          t = { s.withPortsOf t with store := ⟨.record readBack, true, none, .done⟩ }
        else t = { s.withPortsOf t with store := ⟨.torn, false, none, .failed⟩ }

/-- RESTART, the reset pin, a power-on and a power loss put every block into its reset condition; the nonvolatile memory
stays, and so does the reset cause record but for the power events, which lose it (R156, R172, R173, R175). The kind that
stays when the pin acts in RESET, what the input showed last and the part without power are the model's (logs 21 to 23),
as are the reset values that no rule gives (log 27) and the defaults that stand for the settings in RESET (log 28). -/
def Obligations.ResetsRun : Prop :=
  let Base : State → State := fun s =>
    { State.reset with pending := s.pending, store := ⟨s.store.memory, false, none, .untried⟩ }
  (∀ (p : PortId) (s : State), Takable p .restart s →
    exec (.restart p) s = .next { Base s with
      resetKind := .command, cause := s.cause, ref := { State.reset.ref with edgeRecent := s.ref.edgeRecent } }) ∧
  (∀ s : State, exec .resetPin s = .next
    (if s.startup = .loading ∨ s.startup = .run then
      { Base s with
        resetKind := .pin, cause := s.cause, ref := { State.reset.ref with edgeRecent := s.ref.edgeRecent } }
    else s)) ∧
  (∀ s : State, exec .powerOn s = .next { Base s with resetKind := .powerOn }) ∧
  ∀ s : State, exec .powerLoss s = .next { Base s with resetKind := .powerOn, startup := .off }

/-- The end of RESET: LOADING, tick and block count 0, the reset cause recorded, SETTINGS_LOST cleared by a power-on only,
and the reference block in ACQUIRING when an edge was seen lately and ABSENT otherwise (R168, R173, R175). How lately is
kept by the model's choice (log 21). -/
def Obligations.ResetEnds : Prop :=
  ∀ s : State, s.startup = .reset →
    Completes .resetEnd s fun t =>
      t = { s with
        startup := .loading, tick := 0, blockCount := 0, samplesDone := 0,
        cause := ⟨some s.resetKind, if s.resetKind = .powerOn then false else s.cause.lost⟩,
        ref := { s.ref with state := if s.ref.edgeRecent = true then .acquiring else .absent } }

/-- The end of the load at a closed block end, within its bounds: RUN, with the settings of a VALID record, or the
defaults and SETTINGS_LOST; the computed delays and limit flags formed from their distances and temperature, every applied
delay at its computed delay with no wait, and the levels at rest (R138, R139, R145, R147, R170, R173, R175). The instants at which a load can end, and the widths under the check, are the model's choice
(logs 15 and 18). -/
def Obligations.LoadEnds : Prop :=
  ∀ s : State, s.startup = .loading → s.blockEndOpen = false → 40960 ≤ s.tick.toNat → s.tick.toNat ≤ 57344 →
    2 ≤ s.blockCount.toNat → s.buses.length = 64 →
    Completes .loadEnd s fun t =>
      let v : Settings :=
        match s.store.memory with
        | .record r => if r.check = wireCheck (wireSettings r.values) ∧ settingsInRange r.values = true then r.values
          else defaultSettings
        | _ => defaultSettings
      let valid : Prop := ∃ r, s.store.memory = .record r ∧ r.check = wireCheck (wireSettings r.values) ∧
        InRecordRange r.values
      (∀ r, s.store.memory = .record r → (settingsInRange r.values = true ↔ InRecordRange r.values)) ∧
      defaultSettings = ⟨.A, true, List.replicate 64 32768, List.replicate 64 0, 20, [0, 0, 0, 0], 32768, 32768⟩ ∧
      t.startup = .run ∧ (t.store.valid = true ↔ valid) ∧ (valid → t.cause = s.cause) ∧
      (¬ valid → t.cause = { s.cause with lost := true }) ∧ t.sel = { s.sel with
        primary := v.primary, autoRevert := v.autoRevert } ∧ t.airTemp = v.airTemp ∧ t.members = v.members ∧
      t.room = { s.room with
        programme := ⟨v.programmeLevel, v.programmeLevel, 0, false⟩,
        master := ⟨v.masterLevel, v.masterLevel, 0, false⟩ } ∧
      t.buses.map (·.trim) = v.trims ∧ t.buses.map (·.distance) = v.distances ∧
      (let c := (331300 + 606 * v.airTemp).toNat
        let flight : Nat → Nat := fun distance => (distance * 48000 + c / 2) / c
        let far := (v.distances.map flight).foldl max 0
        ∀ i, i < 64 →
          let wanted := far - flight (v.distances.getD i 0)
          t.buses.getD i Bus.reset = { s.buses.getD i Bus.reset with
            trim := v.trims.getD i 0, distance := v.distances.getD i 0, computed := min 2047 wanted,
            limit := decide (2047 < wanted), applied := min 2047 wanted, wait := 0 }) ∧
      (∀ b ∈ t.buses, b.applied = b.computed ∧ b.wait = 0) ∧ t.tick = s.tick ∧ t.blockCount = s.blockCount ∧
      t.scene = s.scene ∧ t.cueing = s.cueing ∧ t.ref = s.ref ∧ (∀ q, t.port q = s.port q) ∧
      ∀ l, t.link l = s.link l

/-- GET_RESET_CAUSE answers the cause and the flag, in LOADING (R174) as in RUN; ACK_RESET_CAUSE sets the cause to NONE and clears the flag; both leave
everything else (R175). -/
def Obligations.ResetCauseReadAndAcknowledged : Prop :=
  (∀ (p : PortId) (s : State), Takable p .getResetCause s ∨ TakableLoading p .getResetCause s →
    Completes (.getResetCause p) s fun t =>
      t = s.withPortsOf t ∧ Answered p .ok 0x09
        [match s.cause.cause with | none => 0 | some .powerOn => 1 | some .pin => 2 | some .command => 3,
          if s.cause.lost = true then 1 else 0] s t) ∧
  ∀ (p : PortId) (s : State), Takable p .ackResetCause s →
    Completes (.ackResetCause p) s fun t =>
      t = { s.withPortsOf t with cause := ⟨none, false⟩ } ∧ Answered p .ok 0x43 [] s t

/-! ### House reference -/

/-- A rising edge in LOADING or RUN moves the reference block by its table: ABSENT and REF_HOLD to ACQUIRING, ACQUIRING
towards REF_LOCKED at 64 periods in tolerance, REF_LOCKED to REF_HOLD at the fourth bad period in a row; a change of
state raises HOUSE_REF at all ports and nothing else changes (R168). The last 64 periods in tolerance are kept, a loss of
the reference makes their average the free frequency, and a pull-in ends at the latest with its 4,096th period (R169).
The free frequency's form, and which periods are kept and counted, are the model's choice (logs 19 to 21). -/
def Obligations.ReferenceEdge : Prop :=
  ∀ (period : Nat) (s : State), s.startup = .loading ∨ s.startup = .run →
    Completes (.refEdge period) s fun t =>
      let good : Prop := 502 ≤ period ∧ period ≤ 522
      let all := s.ref.periods ++ [period]
      let kept := all.drop (all.length - 64)
      let passed := if s.ref.pullIn = true then s.ref.pullPeriods + 1 else s.ref.pullPeriods
      let pulling := s.ref.pullIn && decide (s.ref.pullPeriods + 1 < 4096)
      t = { s.withPortsOf t with ref := t.ref } ∧
      (if t.ref.state = s.ref.state then ∀ q, t.port q = s.port q else RaisedAtAll .houseRef s t) ∧
      (match s.ref.state with
        | .absent => t.ref = { s.ref with edgeRecent := true, state := .acquiring, qual := 0, missing := 0 }
        | .hold => t.ref = { s.ref with edgeRecent := true, state := .acquiring, qual := 0, missing := 0 }
        | .acquiring =>
          (good → 64 ≤ s.ref.qual + 1 → t.ref = { s.ref with
            edgeRecent := true, state := .locked, qual := 0, missing := 0, bad := 0, everLocked := true, pullIn := true,
            pullPeriods := 0, periods := kept }) ∧
          (good → s.ref.qual + 1 < 64 → t.ref = { s.ref with
            edgeRecent := true, qual := s.ref.qual + 1, missing := 0, periods := kept }) ∧
          (¬ good → t.ref = { s.ref with edgeRecent := true, qual := 0, missing := 0 })
        | .locked =>
          (good → t.ref = { s.ref with
            edgeRecent := true, bad := 0, periods := kept, pullPeriods := passed, pullIn := pulling }) ∧
          (¬ good → s.ref.bad + 1 < 4 → t.ref = { s.ref with
            edgeRecent := true, bad := s.ref.bad + 1, pullPeriods := passed, pullIn := pulling }) ∧
          (¬ good → 4 ≤ s.ref.bad + 1 → t.ref = { s.ref with
            edgeRecent := true, state := .hold, bad := 0, pullPeriods := passed, pullIn := false,
            freeCycles := s.ref.periods.sum }))

/-- A missing period, and the end of a pull-in (R168, R169): the fourth in a row takes ACQUIRING to REF_HOLD or ABSENT and
REF_LOCKED to REF_HOLD, with HOUSE_REF at all ports and, on the loss, the average of the kept periods as the free
frequency; the kept periods stay; PULL_IN_END ends the pull-in; nothing else changes. What the input showed last, the free
frequency's form and that a missing period is not counted in a pull-in are the model's choice (logs 20 and 21). -/
def Obligations.ReferenceMissingAndPullIn : Prop :=
  (∀ s : State, s.startup = .loading ∨ s.startup = .run →
    Completes .refMissingPeriod s fun t =>
      t = { s.withPortsOf t with ref := t.ref } ∧
      (if t.ref.state = s.ref.state then ∀ q, t.port q = s.port q else RaisedAtAll .houseRef s t) ∧
      (match s.ref.state with
        | .absent => t.ref = { s.ref with edgeRecent := false }
        | .hold => t.ref = { s.ref with edgeRecent := false }
        | .acquiring => t.ref =
          if s.ref.missing + 1 < 4 then { s.ref with edgeRecent := false, missing := s.ref.missing + 1 }
          else { s.ref with
            edgeRecent := false, state := if s.ref.everLocked = true then .hold else .absent, qual := 0, missing := 0 }
        | .locked => t.ref =
          if s.ref.bad + 1 < 4 then { s.ref with edgeRecent := false, bad := s.ref.bad + 1 }
          else { s.ref with
            edgeRecent := false, state := .hold, bad := 0, pullIn := false, freeCycles := s.ref.periods.sum })) ∧
  ∀ s : State, exec .pullInEnd s = .next { s with ref := { s.ref with pullIn := false } }
end

