-- ==== Sys2Proof/Laws/State.lean ====
section
/-! SUPPORT. What each update of State leaves: one lemma for each field, true by unfolding, so that no later proof
unfolds a record update. -/

namespace Sys2Proof.Machine

/-! ### Reading what was written -/

@[simp] theorem State.link_setLink_self (s : State) (l : LinkId) (x : Link) : (s.setLink l x).link l = x := by
  cases l <;> rfl

theorem State.link_setLink (s : State) (l k : LinkId) (x : Link) :
    (s.setLink l x).link k = if k = l then x else s.link k := by cases l <;> cases k <;> rfl

@[simp] theorem State.port_setPort_self (s : State) (p : PortId) (x : Port) : (s.setPort p x).port p = x := by
  cases p <;> rfl

theorem State.port_setPort (s : State) (p q : PortId) (x : Port) :
    (s.setPort p x).port q = if q = p then x else s.port q := by cases p <;> cases q <;> rfl

@[simp] theorem State.port_setLink (s : State) (l : LinkId) (x : Link) (p : PortId) :
    (s.setLink l x).port p = s.port p := by cases l <;> cases p <;> rfl

@[simp] theorem State.link_setPort (s : State) (p : PortId) (x : Port) (l : LinkId) :
    (s.setPort p x).link l = s.link l := by cases l <;> cases p <;> rfl

@[simp] theorem State.link_onLink_self (s : State) (l : LinkId) (f : Link → Link) :
    (s.onLink l f).link l = f (s.link l) := by cases l <;> rfl

theorem State.link_onLink (s : State) (l k : LinkId) (f : Link → Link) :
    (s.onLink l f).link k = if k = l then f (s.link k) else s.link k := by cases l <;> cases k <;> rfl

@[simp] theorem State.port_onPort_self (s : State) (p : PortId) (f : Port → Port) :
    (s.onPort p f).port p = f (s.port p) := by cases p <;> rfl

theorem State.port_onPort (s : State) (p q : PortId) (f : Port → Port) :
    (s.onPort p f).port q = if q = p then f (s.port q) else s.port q := by cases p <;> cases q <;> rfl

@[simp] theorem State.port_onLink (s : State) (l : LinkId) (f : Link → Link) (p : PortId) :
    (s.onLink l f).port p = s.port p := by cases l <;> cases p <;> rfl

@[simp] theorem State.link_onPort (s : State) (p : PortId) (f : Port → Port) (l : LinkId) :
    (s.onPort p f).link l = s.link l := by cases l <;> cases p <;> rfl

theorem State.port_notify (s : State) (p q : PortId) (n : Notice) :
    (s.notify p n).port q = if q = p then (s.port q).raise n else s.port q := by cases p <;> cases q <;> rfl

@[simp] theorem State.port_notifyAll (s : State) (q : PortId) (n : Notice) :
    (s.notifyAll n).port q = (s.port q).raise n := by cases q <;> rfl

@[simp] theorem State.link_notify (s : State) (p : PortId) (n : Notice) (l : LinkId) :
    (s.notify p n).link l = s.link l := by cases l <;> cases p <;> rfl

@[simp] theorem State.link_notifyAll (s : State) (n : Notice) (l : LinkId) :
    (s.notifyAll n).link l = s.link l := by cases l <;> rfl

@[simp] theorem State.link_notifyServer (s : State) (k : LinkId) (n : Notice) (l : LinkId) :
    (s.notifyServer k n).link l = s.link l := by cases k <;> cases l <;> rfl

theorem State.port_answer (s : State) (p q : PortId) (code : Byte) (status : Status) (payload : List Byte) :
    (s.answer p code status payload).port q =
      if q = p then
        { s.port q with waiting := none, due := false, response := some ⟨status, code, payload⟩, live := none }
      else s.port q := by cases p <;> cases q <;> rfl

@[simp] theorem State.link_answer (s : State) (p : PortId) (code : Byte) (status : Status) (payload : List Byte)
    (l : LinkId) : (s.answer p code status payload).link l = s.link l := by cases p <;> cases l <;> rfl

/-! ### setLink -/

@[simp] theorem State.pending_setLink (s : State) (l : LinkId) (x : Link) :
    (s.setLink l x).pending = s.pending := by cases l <;> rfl

@[simp] theorem State.startup_setLink (s : State) (l : LinkId) (x : Link) :
    (s.setLink l x).startup = s.startup := by cases l <;> rfl

@[simp] theorem State.resetKind_setLink (s : State) (l : LinkId) (x : Link) :
    (s.setLink l x).resetKind = s.resetKind := by cases l <;> rfl

@[simp] theorem State.tick_setLink (s : State) (l : LinkId) (x : Link) :
    (s.setLink l x).tick = s.tick := by cases l <;> rfl

@[simp] theorem State.blockCount_setLink (s : State) (l : LinkId) (x : Link) :
    (s.setLink l x).blockCount = s.blockCount := by cases l <;> rfl

@[simp] theorem State.samplesDone_setLink (s : State) (l : LinkId) (x : Link) :
    (s.setLink l x).samplesDone = s.samplesDone := by cases l <;> rfl

@[simp] theorem State.blockEndOpen_setLink (s : State) (l : LinkId) (x : Link) :
    (s.setLink l x).blockEndOpen = s.blockEndOpen := by cases l <;> rfl

@[simp] theorem State.mixing_setLink (s : State) (l : LinkId) (x : Link) :
    (s.setLink l x).mixing = s.mixing := by cases l <;> rfl

@[simp] theorem State.sel_setLink (s : State) (l : LinkId) (x : Link) :
    (s.setLink l x).sel = s.sel := by cases l <;> rfl

@[simp] theorem State.scene_setLink (s : State) (l : LinkId) (x : Link) :
    (s.setLink l x).scene = s.scene := by cases l <;> rfl

@[simp] theorem State.mixTerms_setLink (s : State) (l : LinkId) (x : Link) :
    (s.setLink l x).mixTerms = s.mixTerms := by cases l <;> rfl

@[simp] theorem State.room_setLink (s : State) (l : LinkId) (x : Link) :
    (s.setLink l x).room = s.room := by cases l <;> rfl

@[simp] theorem State.airTemp_setLink (s : State) (l : LinkId) (x : Link) :
    (s.setLink l x).airTemp = s.airTemp := by cases l <;> rfl

@[simp] theorem State.members_setLink (s : State) (l : LinkId) (x : Link) :
    (s.setLink l x).members = s.members := by cases l <;> rfl

@[simp] theorem State.delayDirty_setLink (s : State) (l : LinkId) (x : Link) :
    (s.setLink l x).delayDirty = s.delayDirty := by cases l <;> rfl

@[simp] theorem State.buses_setLink (s : State) (l : LinkId) (x : Link) :
    (s.setLink l x).buses = s.buses := by cases l <;> rfl

@[simp] theorem State.outFrame_setLink (s : State) (l : LinkId) (x : Link) :
    (s.setLink l x).outFrame = s.outFrame := by cases l <;> rfl

@[simp] theorem State.outMark_setLink (s : State) (l : LinkId) (x : Link) :
    (s.setLink l x).outMark = s.outMark := by cases l <;> rfl

@[simp] theorem State.cueing_setLink (s : State) (l : LinkId) (x : Link) :
    (s.setLink l x).cueing = s.cueing := by cases l <;> rfl

@[simp] theorem State.portA_setLink (s : State) (l : LinkId) (x : Link) :
    (s.setLink l x).portA = s.portA := by cases l <;> rfl

@[simp] theorem State.portB_setLink (s : State) (l : LinkId) (x : Link) :
    (s.setLink l x).portB = s.portB := by cases l <;> rfl

@[simp] theorem State.portC_setLink (s : State) (l : LinkId) (x : Link) :
    (s.setLink l x).portC = s.portC := by cases l <;> rfl

@[simp] theorem State.ref_setLink (s : State) (l : LinkId) (x : Link) :
    (s.setLink l x).ref = s.ref := by cases l <;> rfl

@[simp] theorem State.store_setLink (s : State) (l : LinkId) (x : Link) :
    (s.setLink l x).store = s.store := by cases l <;> rfl

@[simp] theorem State.cause_setLink (s : State) (l : LinkId) (x : Link) :
    (s.setLink l x).cause = s.cause := by cases l <;> rfl

/-! ### setPort -/

@[simp] theorem State.pending_setPort (s : State) (p : PortId) (x : Port) :
    (s.setPort p x).pending = s.pending := by cases p <;> rfl

@[simp] theorem State.startup_setPort (s : State) (p : PortId) (x : Port) :
    (s.setPort p x).startup = s.startup := by cases p <;> rfl

@[simp] theorem State.resetKind_setPort (s : State) (p : PortId) (x : Port) :
    (s.setPort p x).resetKind = s.resetKind := by cases p <;> rfl

@[simp] theorem State.tick_setPort (s : State) (p : PortId) (x : Port) :
    (s.setPort p x).tick = s.tick := by cases p <;> rfl

@[simp] theorem State.blockCount_setPort (s : State) (p : PortId) (x : Port) :
    (s.setPort p x).blockCount = s.blockCount := by cases p <;> rfl

@[simp] theorem State.samplesDone_setPort (s : State) (p : PortId) (x : Port) :
    (s.setPort p x).samplesDone = s.samplesDone := by cases p <;> rfl

@[simp] theorem State.blockEndOpen_setPort (s : State) (p : PortId) (x : Port) :
    (s.setPort p x).blockEndOpen = s.blockEndOpen := by cases p <;> rfl

@[simp] theorem State.mixing_setPort (s : State) (p : PortId) (x : Port) :
    (s.setPort p x).mixing = s.mixing := by cases p <;> rfl

@[simp] theorem State.linkA_setPort (s : State) (p : PortId) (x : Port) :
    (s.setPort p x).linkA = s.linkA := by cases p <;> rfl

@[simp] theorem State.linkB_setPort (s : State) (p : PortId) (x : Port) :
    (s.setPort p x).linkB = s.linkB := by cases p <;> rfl

@[simp] theorem State.linkC_setPort (s : State) (p : PortId) (x : Port) :
    (s.setPort p x).linkC = s.linkC := by cases p <;> rfl

@[simp] theorem State.sel_setPort (s : State) (p : PortId) (x : Port) :
    (s.setPort p x).sel = s.sel := by cases p <;> rfl

@[simp] theorem State.scene_setPort (s : State) (p : PortId) (x : Port) :
    (s.setPort p x).scene = s.scene := by cases p <;> rfl

@[simp] theorem State.mixTerms_setPort (s : State) (p : PortId) (x : Port) :
    (s.setPort p x).mixTerms = s.mixTerms := by cases p <;> rfl

@[simp] theorem State.room_setPort (s : State) (p : PortId) (x : Port) :
    (s.setPort p x).room = s.room := by cases p <;> rfl

@[simp] theorem State.airTemp_setPort (s : State) (p : PortId) (x : Port) :
    (s.setPort p x).airTemp = s.airTemp := by cases p <;> rfl

@[simp] theorem State.members_setPort (s : State) (p : PortId) (x : Port) :
    (s.setPort p x).members = s.members := by cases p <;> rfl

@[simp] theorem State.delayDirty_setPort (s : State) (p : PortId) (x : Port) :
    (s.setPort p x).delayDirty = s.delayDirty := by cases p <;> rfl

@[simp] theorem State.buses_setPort (s : State) (p : PortId) (x : Port) :
    (s.setPort p x).buses = s.buses := by cases p <;> rfl

@[simp] theorem State.outFrame_setPort (s : State) (p : PortId) (x : Port) :
    (s.setPort p x).outFrame = s.outFrame := by cases p <;> rfl

@[simp] theorem State.outMark_setPort (s : State) (p : PortId) (x : Port) :
    (s.setPort p x).outMark = s.outMark := by cases p <;> rfl

@[simp] theorem State.cueing_setPort (s : State) (p : PortId) (x : Port) :
    (s.setPort p x).cueing = s.cueing := by cases p <;> rfl

@[simp] theorem State.ref_setPort (s : State) (p : PortId) (x : Port) :
    (s.setPort p x).ref = s.ref := by cases p <;> rfl

@[simp] theorem State.store_setPort (s : State) (p : PortId) (x : Port) :
    (s.setPort p x).store = s.store := by cases p <;> rfl

@[simp] theorem State.cause_setPort (s : State) (p : PortId) (x : Port) :
    (s.setPort p x).cause = s.cause := by cases p <;> rfl

/-! ### onLink -/

@[simp] theorem State.pending_onLink (s : State) (l : LinkId) (f : Link → Link) :
    (s.onLink l f).pending = s.pending := by cases l <;> rfl

@[simp] theorem State.startup_onLink (s : State) (l : LinkId) (f : Link → Link) :
    (s.onLink l f).startup = s.startup := by cases l <;> rfl

@[simp] theorem State.resetKind_onLink (s : State) (l : LinkId) (f : Link → Link) :
    (s.onLink l f).resetKind = s.resetKind := by cases l <;> rfl

@[simp] theorem State.tick_onLink (s : State) (l : LinkId) (f : Link → Link) :
    (s.onLink l f).tick = s.tick := by cases l <;> rfl

@[simp] theorem State.blockCount_onLink (s : State) (l : LinkId) (f : Link → Link) :
    (s.onLink l f).blockCount = s.blockCount := by cases l <;> rfl

@[simp] theorem State.samplesDone_onLink (s : State) (l : LinkId) (f : Link → Link) :
    (s.onLink l f).samplesDone = s.samplesDone := by cases l <;> rfl

@[simp] theorem State.blockEndOpen_onLink (s : State) (l : LinkId) (f : Link → Link) :
    (s.onLink l f).blockEndOpen = s.blockEndOpen := by cases l <;> rfl

@[simp] theorem State.mixing_onLink (s : State) (l : LinkId) (f : Link → Link) :
    (s.onLink l f).mixing = s.mixing := by cases l <;> rfl

@[simp] theorem State.sel_onLink (s : State) (l : LinkId) (f : Link → Link) :
    (s.onLink l f).sel = s.sel := by cases l <;> rfl

@[simp] theorem State.scene_onLink (s : State) (l : LinkId) (f : Link → Link) :
    (s.onLink l f).scene = s.scene := by cases l <;> rfl

@[simp] theorem State.mixTerms_onLink (s : State) (l : LinkId) (f : Link → Link) :
    (s.onLink l f).mixTerms = s.mixTerms := by cases l <;> rfl

@[simp] theorem State.room_onLink (s : State) (l : LinkId) (f : Link → Link) :
    (s.onLink l f).room = s.room := by cases l <;> rfl

@[simp] theorem State.airTemp_onLink (s : State) (l : LinkId) (f : Link → Link) :
    (s.onLink l f).airTemp = s.airTemp := by cases l <;> rfl

@[simp] theorem State.members_onLink (s : State) (l : LinkId) (f : Link → Link) :
    (s.onLink l f).members = s.members := by cases l <;> rfl

@[simp] theorem State.delayDirty_onLink (s : State) (l : LinkId) (f : Link → Link) :
    (s.onLink l f).delayDirty = s.delayDirty := by cases l <;> rfl

@[simp] theorem State.buses_onLink (s : State) (l : LinkId) (f : Link → Link) :
    (s.onLink l f).buses = s.buses := by cases l <;> rfl

@[simp] theorem State.outFrame_onLink (s : State) (l : LinkId) (f : Link → Link) :
    (s.onLink l f).outFrame = s.outFrame := by cases l <;> rfl

@[simp] theorem State.outMark_onLink (s : State) (l : LinkId) (f : Link → Link) :
    (s.onLink l f).outMark = s.outMark := by cases l <;> rfl

@[simp] theorem State.cueing_onLink (s : State) (l : LinkId) (f : Link → Link) :
    (s.onLink l f).cueing = s.cueing := by cases l <;> rfl

@[simp] theorem State.portA_onLink (s : State) (l : LinkId) (f : Link → Link) :
    (s.onLink l f).portA = s.portA := by cases l <;> rfl

@[simp] theorem State.portB_onLink (s : State) (l : LinkId) (f : Link → Link) :
    (s.onLink l f).portB = s.portB := by cases l <;> rfl

@[simp] theorem State.portC_onLink (s : State) (l : LinkId) (f : Link → Link) :
    (s.onLink l f).portC = s.portC := by cases l <;> rfl

@[simp] theorem State.ref_onLink (s : State) (l : LinkId) (f : Link → Link) :
    (s.onLink l f).ref = s.ref := by cases l <;> rfl

@[simp] theorem State.store_onLink (s : State) (l : LinkId) (f : Link → Link) :
    (s.onLink l f).store = s.store := by cases l <;> rfl

@[simp] theorem State.cause_onLink (s : State) (l : LinkId) (f : Link → Link) :
    (s.onLink l f).cause = s.cause := by cases l <;> rfl

/-! ### onPort -/

@[simp] theorem State.pending_onPort (s : State) (p : PortId) (f : Port → Port) :
    (s.onPort p f).pending = s.pending := by cases p <;> rfl

@[simp] theorem State.startup_onPort (s : State) (p : PortId) (f : Port → Port) :
    (s.onPort p f).startup = s.startup := by cases p <;> rfl

@[simp] theorem State.resetKind_onPort (s : State) (p : PortId) (f : Port → Port) :
    (s.onPort p f).resetKind = s.resetKind := by cases p <;> rfl

@[simp] theorem State.tick_onPort (s : State) (p : PortId) (f : Port → Port) :
    (s.onPort p f).tick = s.tick := by cases p <;> rfl

@[simp] theorem State.blockCount_onPort (s : State) (p : PortId) (f : Port → Port) :
    (s.onPort p f).blockCount = s.blockCount := by cases p <;> rfl

@[simp] theorem State.samplesDone_onPort (s : State) (p : PortId) (f : Port → Port) :
    (s.onPort p f).samplesDone = s.samplesDone := by cases p <;> rfl

@[simp] theorem State.blockEndOpen_onPort (s : State) (p : PortId) (f : Port → Port) :
    (s.onPort p f).blockEndOpen = s.blockEndOpen := by cases p <;> rfl

@[simp] theorem State.mixing_onPort (s : State) (p : PortId) (f : Port → Port) :
    (s.onPort p f).mixing = s.mixing := by cases p <;> rfl

@[simp] theorem State.linkA_onPort (s : State) (p : PortId) (f : Port → Port) :
    (s.onPort p f).linkA = s.linkA := by cases p <;> rfl

@[simp] theorem State.linkB_onPort (s : State) (p : PortId) (f : Port → Port) :
    (s.onPort p f).linkB = s.linkB := by cases p <;> rfl

@[simp] theorem State.linkC_onPort (s : State) (p : PortId) (f : Port → Port) :
    (s.onPort p f).linkC = s.linkC := by cases p <;> rfl

@[simp] theorem State.sel_onPort (s : State) (p : PortId) (f : Port → Port) :
    (s.onPort p f).sel = s.sel := by cases p <;> rfl

@[simp] theorem State.scene_onPort (s : State) (p : PortId) (f : Port → Port) :
    (s.onPort p f).scene = s.scene := by cases p <;> rfl

@[simp] theorem State.mixTerms_onPort (s : State) (p : PortId) (f : Port → Port) :
    (s.onPort p f).mixTerms = s.mixTerms := by cases p <;> rfl

@[simp] theorem State.room_onPort (s : State) (p : PortId) (f : Port → Port) :
    (s.onPort p f).room = s.room := by cases p <;> rfl

@[simp] theorem State.airTemp_onPort (s : State) (p : PortId) (f : Port → Port) :
    (s.onPort p f).airTemp = s.airTemp := by cases p <;> rfl

@[simp] theorem State.members_onPort (s : State) (p : PortId) (f : Port → Port) :
    (s.onPort p f).members = s.members := by cases p <;> rfl

@[simp] theorem State.delayDirty_onPort (s : State) (p : PortId) (f : Port → Port) :
    (s.onPort p f).delayDirty = s.delayDirty := by cases p <;> rfl

@[simp] theorem State.buses_onPort (s : State) (p : PortId) (f : Port → Port) :
    (s.onPort p f).buses = s.buses := by cases p <;> rfl

@[simp] theorem State.outFrame_onPort (s : State) (p : PortId) (f : Port → Port) :
    (s.onPort p f).outFrame = s.outFrame := by cases p <;> rfl

@[simp] theorem State.outMark_onPort (s : State) (p : PortId) (f : Port → Port) :
    (s.onPort p f).outMark = s.outMark := by cases p <;> rfl

@[simp] theorem State.cueing_onPort (s : State) (p : PortId) (f : Port → Port) :
    (s.onPort p f).cueing = s.cueing := by cases p <;> rfl

@[simp] theorem State.ref_onPort (s : State) (p : PortId) (f : Port → Port) :
    (s.onPort p f).ref = s.ref := by cases p <;> rfl

@[simp] theorem State.store_onPort (s : State) (p : PortId) (f : Port → Port) :
    (s.onPort p f).store = s.store := by cases p <;> rfl

@[simp] theorem State.cause_onPort (s : State) (p : PortId) (f : Port → Port) :
    (s.onPort p f).cause = s.cause := by cases p <;> rfl

/-! ### notify -/

@[simp] theorem State.pending_notify (s : State) (p : PortId) (n : Notice) :
    (s.notify p n).pending = s.pending := by cases p <;> rfl

@[simp] theorem State.startup_notify (s : State) (p : PortId) (n : Notice) :
    (s.notify p n).startup = s.startup := by cases p <;> rfl

@[simp] theorem State.resetKind_notify (s : State) (p : PortId) (n : Notice) :
    (s.notify p n).resetKind = s.resetKind := by cases p <;> rfl

@[simp] theorem State.tick_notify (s : State) (p : PortId) (n : Notice) :
    (s.notify p n).tick = s.tick := by cases p <;> rfl

@[simp] theorem State.blockCount_notify (s : State) (p : PortId) (n : Notice) :
    (s.notify p n).blockCount = s.blockCount := by cases p <;> rfl

@[simp] theorem State.samplesDone_notify (s : State) (p : PortId) (n : Notice) :
    (s.notify p n).samplesDone = s.samplesDone := by cases p <;> rfl

@[simp] theorem State.blockEndOpen_notify (s : State) (p : PortId) (n : Notice) :
    (s.notify p n).blockEndOpen = s.blockEndOpen := by cases p <;> rfl

@[simp] theorem State.mixing_notify (s : State) (p : PortId) (n : Notice) :
    (s.notify p n).mixing = s.mixing := by cases p <;> rfl

@[simp] theorem State.linkA_notify (s : State) (p : PortId) (n : Notice) :
    (s.notify p n).linkA = s.linkA := by cases p <;> rfl

@[simp] theorem State.linkB_notify (s : State) (p : PortId) (n : Notice) :
    (s.notify p n).linkB = s.linkB := by cases p <;> rfl

@[simp] theorem State.linkC_notify (s : State) (p : PortId) (n : Notice) :
    (s.notify p n).linkC = s.linkC := by cases p <;> rfl

@[simp] theorem State.sel_notify (s : State) (p : PortId) (n : Notice) :
    (s.notify p n).sel = s.sel := by cases p <;> rfl

@[simp] theorem State.scene_notify (s : State) (p : PortId) (n : Notice) :
    (s.notify p n).scene = s.scene := by cases p <;> rfl

@[simp] theorem State.mixTerms_notify (s : State) (p : PortId) (n : Notice) :
    (s.notify p n).mixTerms = s.mixTerms := by cases p <;> rfl

@[simp] theorem State.room_notify (s : State) (p : PortId) (n : Notice) :
    (s.notify p n).room = s.room := by cases p <;> rfl

@[simp] theorem State.airTemp_notify (s : State) (p : PortId) (n : Notice) :
    (s.notify p n).airTemp = s.airTemp := by cases p <;> rfl

@[simp] theorem State.members_notify (s : State) (p : PortId) (n : Notice) :
    (s.notify p n).members = s.members := by cases p <;> rfl

@[simp] theorem State.delayDirty_notify (s : State) (p : PortId) (n : Notice) :
    (s.notify p n).delayDirty = s.delayDirty := by cases p <;> rfl

@[simp] theorem State.buses_notify (s : State) (p : PortId) (n : Notice) :
    (s.notify p n).buses = s.buses := by cases p <;> rfl

@[simp] theorem State.outFrame_notify (s : State) (p : PortId) (n : Notice) :
    (s.notify p n).outFrame = s.outFrame := by cases p <;> rfl

@[simp] theorem State.outMark_notify (s : State) (p : PortId) (n : Notice) :
    (s.notify p n).outMark = s.outMark := by cases p <;> rfl

@[simp] theorem State.cueing_notify (s : State) (p : PortId) (n : Notice) :
    (s.notify p n).cueing = s.cueing := by cases p <;> rfl

@[simp] theorem State.ref_notify (s : State) (p : PortId) (n : Notice) :
    (s.notify p n).ref = s.ref := by cases p <;> rfl

@[simp] theorem State.store_notify (s : State) (p : PortId) (n : Notice) :
    (s.notify p n).store = s.store := by cases p <;> rfl

@[simp] theorem State.cause_notify (s : State) (p : PortId) (n : Notice) :
    (s.notify p n).cause = s.cause := by cases p <;> rfl

/-! ### notifyAll -/

@[simp] theorem State.pending_notifyAll (s : State) (n : Notice) :
    (s.notifyAll n).pending = s.pending := by rfl

@[simp] theorem State.startup_notifyAll (s : State) (n : Notice) :
    (s.notifyAll n).startup = s.startup := by rfl

@[simp] theorem State.resetKind_notifyAll (s : State) (n : Notice) :
    (s.notifyAll n).resetKind = s.resetKind := by rfl

@[simp] theorem State.tick_notifyAll (s : State) (n : Notice) :
    (s.notifyAll n).tick = s.tick := by rfl

@[simp] theorem State.blockCount_notifyAll (s : State) (n : Notice) :
    (s.notifyAll n).blockCount = s.blockCount := by rfl

@[simp] theorem State.samplesDone_notifyAll (s : State) (n : Notice) :
    (s.notifyAll n).samplesDone = s.samplesDone := by rfl

@[simp] theorem State.blockEndOpen_notifyAll (s : State) (n : Notice) :
    (s.notifyAll n).blockEndOpen = s.blockEndOpen := by rfl

@[simp] theorem State.mixing_notifyAll (s : State) (n : Notice) :
    (s.notifyAll n).mixing = s.mixing := by rfl

@[simp] theorem State.linkA_notifyAll (s : State) (n : Notice) :
    (s.notifyAll n).linkA = s.linkA := by rfl

@[simp] theorem State.linkB_notifyAll (s : State) (n : Notice) :
    (s.notifyAll n).linkB = s.linkB := by rfl

@[simp] theorem State.linkC_notifyAll (s : State) (n : Notice) :
    (s.notifyAll n).linkC = s.linkC := by rfl

@[simp] theorem State.sel_notifyAll (s : State) (n : Notice) :
    (s.notifyAll n).sel = s.sel := by rfl

@[simp] theorem State.scene_notifyAll (s : State) (n : Notice) :
    (s.notifyAll n).scene = s.scene := by rfl

@[simp] theorem State.mixTerms_notifyAll (s : State) (n : Notice) :
    (s.notifyAll n).mixTerms = s.mixTerms := by rfl

@[simp] theorem State.room_notifyAll (s : State) (n : Notice) :
    (s.notifyAll n).room = s.room := by rfl

@[simp] theorem State.airTemp_notifyAll (s : State) (n : Notice) :
    (s.notifyAll n).airTemp = s.airTemp := by rfl

@[simp] theorem State.members_notifyAll (s : State) (n : Notice) :
    (s.notifyAll n).members = s.members := by rfl

@[simp] theorem State.delayDirty_notifyAll (s : State) (n : Notice) :
    (s.notifyAll n).delayDirty = s.delayDirty := by rfl

@[simp] theorem State.buses_notifyAll (s : State) (n : Notice) :
    (s.notifyAll n).buses = s.buses := by rfl

@[simp] theorem State.outFrame_notifyAll (s : State) (n : Notice) :
    (s.notifyAll n).outFrame = s.outFrame := by rfl

@[simp] theorem State.outMark_notifyAll (s : State) (n : Notice) :
    (s.notifyAll n).outMark = s.outMark := by rfl

@[simp] theorem State.cueing_notifyAll (s : State) (n : Notice) :
    (s.notifyAll n).cueing = s.cueing := by rfl

@[simp] theorem State.ref_notifyAll (s : State) (n : Notice) :
    (s.notifyAll n).ref = s.ref := by rfl

@[simp] theorem State.store_notifyAll (s : State) (n : Notice) :
    (s.notifyAll n).store = s.store := by rfl

@[simp] theorem State.cause_notifyAll (s : State) (n : Notice) :
    (s.notifyAll n).cause = s.cause := by rfl

/-! ### notifyServer -/

@[simp] theorem State.pending_notifyServer (s : State) (l : LinkId) (n : Notice) :
    (s.notifyServer l n).pending = s.pending := by cases l <;> rfl

@[simp] theorem State.startup_notifyServer (s : State) (l : LinkId) (n : Notice) :
    (s.notifyServer l n).startup = s.startup := by cases l <;> rfl

@[simp] theorem State.resetKind_notifyServer (s : State) (l : LinkId) (n : Notice) :
    (s.notifyServer l n).resetKind = s.resetKind := by cases l <;> rfl

@[simp] theorem State.tick_notifyServer (s : State) (l : LinkId) (n : Notice) :
    (s.notifyServer l n).tick = s.tick := by cases l <;> rfl

@[simp] theorem State.blockCount_notifyServer (s : State) (l : LinkId) (n : Notice) :
    (s.notifyServer l n).blockCount = s.blockCount := by cases l <;> rfl

@[simp] theorem State.samplesDone_notifyServer (s : State) (l : LinkId) (n : Notice) :
    (s.notifyServer l n).samplesDone = s.samplesDone := by cases l <;> rfl

@[simp] theorem State.blockEndOpen_notifyServer (s : State) (l : LinkId) (n : Notice) :
    (s.notifyServer l n).blockEndOpen = s.blockEndOpen := by cases l <;> rfl

@[simp] theorem State.mixing_notifyServer (s : State) (l : LinkId) (n : Notice) :
    (s.notifyServer l n).mixing = s.mixing := by cases l <;> rfl

@[simp] theorem State.linkA_notifyServer (s : State) (l : LinkId) (n : Notice) :
    (s.notifyServer l n).linkA = s.linkA := by cases l <;> rfl

@[simp] theorem State.linkB_notifyServer (s : State) (l : LinkId) (n : Notice) :
    (s.notifyServer l n).linkB = s.linkB := by cases l <;> rfl

@[simp] theorem State.linkC_notifyServer (s : State) (l : LinkId) (n : Notice) :
    (s.notifyServer l n).linkC = s.linkC := by cases l <;> rfl

@[simp] theorem State.sel_notifyServer (s : State) (l : LinkId) (n : Notice) :
    (s.notifyServer l n).sel = s.sel := by cases l <;> rfl

@[simp] theorem State.scene_notifyServer (s : State) (l : LinkId) (n : Notice) :
    (s.notifyServer l n).scene = s.scene := by cases l <;> rfl

@[simp] theorem State.mixTerms_notifyServer (s : State) (l : LinkId) (n : Notice) :
    (s.notifyServer l n).mixTerms = s.mixTerms := by cases l <;> rfl

@[simp] theorem State.room_notifyServer (s : State) (l : LinkId) (n : Notice) :
    (s.notifyServer l n).room = s.room := by cases l <;> rfl

@[simp] theorem State.airTemp_notifyServer (s : State) (l : LinkId) (n : Notice) :
    (s.notifyServer l n).airTemp = s.airTemp := by cases l <;> rfl

@[simp] theorem State.members_notifyServer (s : State) (l : LinkId) (n : Notice) :
    (s.notifyServer l n).members = s.members := by cases l <;> rfl

@[simp] theorem State.delayDirty_notifyServer (s : State) (l : LinkId) (n : Notice) :
    (s.notifyServer l n).delayDirty = s.delayDirty := by cases l <;> rfl

@[simp] theorem State.buses_notifyServer (s : State) (l : LinkId) (n : Notice) :
    (s.notifyServer l n).buses = s.buses := by cases l <;> rfl

@[simp] theorem State.outFrame_notifyServer (s : State) (l : LinkId) (n : Notice) :
    (s.notifyServer l n).outFrame = s.outFrame := by cases l <;> rfl

@[simp] theorem State.outMark_notifyServer (s : State) (l : LinkId) (n : Notice) :
    (s.notifyServer l n).outMark = s.outMark := by cases l <;> rfl

@[simp] theorem State.cueing_notifyServer (s : State) (l : LinkId) (n : Notice) :
    (s.notifyServer l n).cueing = s.cueing := by cases l <;> rfl

@[simp] theorem State.ref_notifyServer (s : State) (l : LinkId) (n : Notice) :
    (s.notifyServer l n).ref = s.ref := by cases l <;> rfl

@[simp] theorem State.store_notifyServer (s : State) (l : LinkId) (n : Notice) :
    (s.notifyServer l n).store = s.store := by cases l <;> rfl

@[simp] theorem State.cause_notifyServer (s : State) (l : LinkId) (n : Notice) :
    (s.notifyServer l n).cause = s.cause := by cases l <;> rfl

/-! ### answer -/

@[simp] theorem State.pending_answer (s : State) (p : PortId) (code : Byte) (status : Status)
    (payload : List Byte) :
    (s.answer p code status payload).pending = s.pending := by cases p <;> rfl

@[simp] theorem State.startup_answer (s : State) (p : PortId) (code : Byte) (status : Status)
    (payload : List Byte) :
    (s.answer p code status payload).startup = s.startup := by cases p <;> rfl

@[simp] theorem State.resetKind_answer (s : State) (p : PortId) (code : Byte) (status : Status)
    (payload : List Byte) :
    (s.answer p code status payload).resetKind = s.resetKind := by cases p <;> rfl

@[simp] theorem State.tick_answer (s : State) (p : PortId) (code : Byte) (status : Status)
    (payload : List Byte) :
    (s.answer p code status payload).tick = s.tick := by cases p <;> rfl

@[simp] theorem State.blockCount_answer (s : State) (p : PortId) (code : Byte) (status : Status)
    (payload : List Byte) :
    (s.answer p code status payload).blockCount = s.blockCount := by cases p <;> rfl

@[simp] theorem State.samplesDone_answer (s : State) (p : PortId) (code : Byte) (status : Status)
    (payload : List Byte) :
    (s.answer p code status payload).samplesDone = s.samplesDone := by cases p <;> rfl

@[simp] theorem State.blockEndOpen_answer (s : State) (p : PortId) (code : Byte) (status : Status)
    (payload : List Byte) :
    (s.answer p code status payload).blockEndOpen = s.blockEndOpen := by cases p <;> rfl

@[simp] theorem State.mixing_answer (s : State) (p : PortId) (code : Byte) (status : Status)
    (payload : List Byte) :
    (s.answer p code status payload).mixing = s.mixing := by cases p <;> rfl

@[simp] theorem State.linkA_answer (s : State) (p : PortId) (code : Byte) (status : Status)
    (payload : List Byte) :
    (s.answer p code status payload).linkA = s.linkA := by cases p <;> rfl

@[simp] theorem State.linkB_answer (s : State) (p : PortId) (code : Byte) (status : Status)
    (payload : List Byte) :
    (s.answer p code status payload).linkB = s.linkB := by cases p <;> rfl

@[simp] theorem State.linkC_answer (s : State) (p : PortId) (code : Byte) (status : Status)
    (payload : List Byte) :
    (s.answer p code status payload).linkC = s.linkC := by cases p <;> rfl

@[simp] theorem State.sel_answer (s : State) (p : PortId) (code : Byte) (status : Status)
    (payload : List Byte) :
    (s.answer p code status payload).sel = s.sel := by cases p <;> rfl

@[simp] theorem State.scene_answer (s : State) (p : PortId) (code : Byte) (status : Status)
    (payload : List Byte) :
    (s.answer p code status payload).scene = s.scene := by cases p <;> rfl

@[simp] theorem State.mixTerms_answer (s : State) (p : PortId) (code : Byte) (status : Status)
    (payload : List Byte) :
    (s.answer p code status payload).mixTerms = s.mixTerms := by cases p <;> rfl

@[simp] theorem State.room_answer (s : State) (p : PortId) (code : Byte) (status : Status)
    (payload : List Byte) :
    (s.answer p code status payload).room = s.room := by cases p <;> rfl

@[simp] theorem State.airTemp_answer (s : State) (p : PortId) (code : Byte) (status : Status)
    (payload : List Byte) :
    (s.answer p code status payload).airTemp = s.airTemp := by cases p <;> rfl

@[simp] theorem State.members_answer (s : State) (p : PortId) (code : Byte) (status : Status)
    (payload : List Byte) :
    (s.answer p code status payload).members = s.members := by cases p <;> rfl

@[simp] theorem State.delayDirty_answer (s : State) (p : PortId) (code : Byte) (status : Status)
    (payload : List Byte) :
    (s.answer p code status payload).delayDirty = s.delayDirty := by cases p <;> rfl

@[simp] theorem State.buses_answer (s : State) (p : PortId) (code : Byte) (status : Status)
    (payload : List Byte) :
    (s.answer p code status payload).buses = s.buses := by cases p <;> rfl

@[simp] theorem State.outFrame_answer (s : State) (p : PortId) (code : Byte) (status : Status)
    (payload : List Byte) :
    (s.answer p code status payload).outFrame = s.outFrame := by cases p <;> rfl

@[simp] theorem State.outMark_answer (s : State) (p : PortId) (code : Byte) (status : Status)
    (payload : List Byte) :
    (s.answer p code status payload).outMark = s.outMark := by cases p <;> rfl

@[simp] theorem State.cueing_answer (s : State) (p : PortId) (code : Byte) (status : Status)
    (payload : List Byte) :
    (s.answer p code status payload).cueing = s.cueing := by cases p <;> rfl

@[simp] theorem State.ref_answer (s : State) (p : PortId) (code : Byte) (status : Status)
    (payload : List Byte) :
    (s.answer p code status payload).ref = s.ref := by cases p <;> rfl

@[simp] theorem State.store_answer (s : State) (p : PortId) (code : Byte) (status : Status)
    (payload : List Byte) :
    (s.answer p code status payload).store = s.store := by cases p <;> rfl

@[simp] theorem State.cause_answer (s : State) (p : PortId) (code : Byte) (status : Status)
    (payload : List Byte) :
    (s.answer p code status payload).cause = s.cause := by cases p <;> rfl

/-! ### onSel -/

@[simp] theorem State.pending_onSel (s : State) (f : Selector → Selector) :
    (s.onSel f).pending = s.pending := by rfl

@[simp] theorem State.startup_onSel (s : State) (f : Selector → Selector) :
    (s.onSel f).startup = s.startup := by rfl

@[simp] theorem State.resetKind_onSel (s : State) (f : Selector → Selector) :
    (s.onSel f).resetKind = s.resetKind := by rfl

@[simp] theorem State.tick_onSel (s : State) (f : Selector → Selector) :
    (s.onSel f).tick = s.tick := by rfl

@[simp] theorem State.blockCount_onSel (s : State) (f : Selector → Selector) :
    (s.onSel f).blockCount = s.blockCount := by rfl

@[simp] theorem State.samplesDone_onSel (s : State) (f : Selector → Selector) :
    (s.onSel f).samplesDone = s.samplesDone := by rfl

@[simp] theorem State.blockEndOpen_onSel (s : State) (f : Selector → Selector) :
    (s.onSel f).blockEndOpen = s.blockEndOpen := by rfl

@[simp] theorem State.mixing_onSel (s : State) (f : Selector → Selector) :
    (s.onSel f).mixing = s.mixing := by rfl

@[simp] theorem State.linkA_onSel (s : State) (f : Selector → Selector) :
    (s.onSel f).linkA = s.linkA := by rfl

@[simp] theorem State.linkB_onSel (s : State) (f : Selector → Selector) :
    (s.onSel f).linkB = s.linkB := by rfl

@[simp] theorem State.linkC_onSel (s : State) (f : Selector → Selector) :
    (s.onSel f).linkC = s.linkC := by rfl

@[simp] theorem State.scene_onSel (s : State) (f : Selector → Selector) :
    (s.onSel f).scene = s.scene := by rfl

@[simp] theorem State.mixTerms_onSel (s : State) (f : Selector → Selector) :
    (s.onSel f).mixTerms = s.mixTerms := by rfl

@[simp] theorem State.room_onSel (s : State) (f : Selector → Selector) :
    (s.onSel f).room = s.room := by rfl

@[simp] theorem State.airTemp_onSel (s : State) (f : Selector → Selector) :
    (s.onSel f).airTemp = s.airTemp := by rfl

@[simp] theorem State.members_onSel (s : State) (f : Selector → Selector) :
    (s.onSel f).members = s.members := by rfl

@[simp] theorem State.delayDirty_onSel (s : State) (f : Selector → Selector) :
    (s.onSel f).delayDirty = s.delayDirty := by rfl

@[simp] theorem State.buses_onSel (s : State) (f : Selector → Selector) :
    (s.onSel f).buses = s.buses := by rfl

@[simp] theorem State.outFrame_onSel (s : State) (f : Selector → Selector) :
    (s.onSel f).outFrame = s.outFrame := by rfl

@[simp] theorem State.outMark_onSel (s : State) (f : Selector → Selector) :
    (s.onSel f).outMark = s.outMark := by rfl

@[simp] theorem State.cueing_onSel (s : State) (f : Selector → Selector) :
    (s.onSel f).cueing = s.cueing := by rfl

@[simp] theorem State.portA_onSel (s : State) (f : Selector → Selector) :
    (s.onSel f).portA = s.portA := by rfl

@[simp] theorem State.portB_onSel (s : State) (f : Selector → Selector) :
    (s.onSel f).portB = s.portB := by rfl

@[simp] theorem State.portC_onSel (s : State) (f : Selector → Selector) :
    (s.onSel f).portC = s.portC := by rfl

@[simp] theorem State.ref_onSel (s : State) (f : Selector → Selector) :
    (s.onSel f).ref = s.ref := by rfl

@[simp] theorem State.store_onSel (s : State) (f : Selector → Selector) :
    (s.onSel f).store = s.store := by rfl

@[simp] theorem State.cause_onSel (s : State) (f : Selector → Selector) :
    (s.onSel f).cause = s.cause := by rfl

/-! ### onRoom -/

@[simp] theorem State.pending_onRoom (s : State) (f : Room → Room) :
    (s.onRoom f).pending = s.pending := by rfl

@[simp] theorem State.startup_onRoom (s : State) (f : Room → Room) :
    (s.onRoom f).startup = s.startup := by rfl

@[simp] theorem State.resetKind_onRoom (s : State) (f : Room → Room) :
    (s.onRoom f).resetKind = s.resetKind := by rfl

@[simp] theorem State.tick_onRoom (s : State) (f : Room → Room) :
    (s.onRoom f).tick = s.tick := by rfl

@[simp] theorem State.blockCount_onRoom (s : State) (f : Room → Room) :
    (s.onRoom f).blockCount = s.blockCount := by rfl

@[simp] theorem State.samplesDone_onRoom (s : State) (f : Room → Room) :
    (s.onRoom f).samplesDone = s.samplesDone := by rfl

@[simp] theorem State.blockEndOpen_onRoom (s : State) (f : Room → Room) :
    (s.onRoom f).blockEndOpen = s.blockEndOpen := by rfl

@[simp] theorem State.mixing_onRoom (s : State) (f : Room → Room) :
    (s.onRoom f).mixing = s.mixing := by rfl

@[simp] theorem State.linkA_onRoom (s : State) (f : Room → Room) :
    (s.onRoom f).linkA = s.linkA := by rfl

@[simp] theorem State.linkB_onRoom (s : State) (f : Room → Room) :
    (s.onRoom f).linkB = s.linkB := by rfl

@[simp] theorem State.linkC_onRoom (s : State) (f : Room → Room) :
    (s.onRoom f).linkC = s.linkC := by rfl

@[simp] theorem State.sel_onRoom (s : State) (f : Room → Room) :
    (s.onRoom f).sel = s.sel := by rfl

@[simp] theorem State.scene_onRoom (s : State) (f : Room → Room) :
    (s.onRoom f).scene = s.scene := by rfl

@[simp] theorem State.mixTerms_onRoom (s : State) (f : Room → Room) :
    (s.onRoom f).mixTerms = s.mixTerms := by rfl

@[simp] theorem State.airTemp_onRoom (s : State) (f : Room → Room) :
    (s.onRoom f).airTemp = s.airTemp := by rfl

@[simp] theorem State.members_onRoom (s : State) (f : Room → Room) :
    (s.onRoom f).members = s.members := by rfl

@[simp] theorem State.delayDirty_onRoom (s : State) (f : Room → Room) :
    (s.onRoom f).delayDirty = s.delayDirty := by rfl

@[simp] theorem State.buses_onRoom (s : State) (f : Room → Room) :
    (s.onRoom f).buses = s.buses := by rfl

@[simp] theorem State.outFrame_onRoom (s : State) (f : Room → Room) :
    (s.onRoom f).outFrame = s.outFrame := by rfl

@[simp] theorem State.outMark_onRoom (s : State) (f : Room → Room) :
    (s.onRoom f).outMark = s.outMark := by rfl

@[simp] theorem State.cueing_onRoom (s : State) (f : Room → Room) :
    (s.onRoom f).cueing = s.cueing := by rfl

@[simp] theorem State.portA_onRoom (s : State) (f : Room → Room) :
    (s.onRoom f).portA = s.portA := by rfl

@[simp] theorem State.portB_onRoom (s : State) (f : Room → Room) :
    (s.onRoom f).portB = s.portB := by rfl

@[simp] theorem State.portC_onRoom (s : State) (f : Room → Room) :
    (s.onRoom f).portC = s.portC := by rfl

@[simp] theorem State.ref_onRoom (s : State) (f : Room → Room) :
    (s.onRoom f).ref = s.ref := by rfl

@[simp] theorem State.store_onRoom (s : State) (f : Room → Room) :
    (s.onRoom f).store = s.store := by rfl

@[simp] theorem State.cause_onRoom (s : State) (f : Room → Room) :
    (s.onRoom f).cause = s.cause := by rfl

/-! ### onScene -/

@[simp] theorem State.pending_onScene (s : State) (f : Scene → Scene) :
    (s.onScene f).pending = s.pending := by rfl

@[simp] theorem State.startup_onScene (s : State) (f : Scene → Scene) :
    (s.onScene f).startup = s.startup := by rfl

@[simp] theorem State.resetKind_onScene (s : State) (f : Scene → Scene) :
    (s.onScene f).resetKind = s.resetKind := by rfl

@[simp] theorem State.tick_onScene (s : State) (f : Scene → Scene) :
    (s.onScene f).tick = s.tick := by rfl

@[simp] theorem State.blockCount_onScene (s : State) (f : Scene → Scene) :
    (s.onScene f).blockCount = s.blockCount := by rfl

@[simp] theorem State.samplesDone_onScene (s : State) (f : Scene → Scene) :
    (s.onScene f).samplesDone = s.samplesDone := by rfl

@[simp] theorem State.blockEndOpen_onScene (s : State) (f : Scene → Scene) :
    (s.onScene f).blockEndOpen = s.blockEndOpen := by rfl

@[simp] theorem State.mixing_onScene (s : State) (f : Scene → Scene) :
    (s.onScene f).mixing = s.mixing := by rfl

@[simp] theorem State.linkA_onScene (s : State) (f : Scene → Scene) :
    (s.onScene f).linkA = s.linkA := by rfl

@[simp] theorem State.linkB_onScene (s : State) (f : Scene → Scene) :
    (s.onScene f).linkB = s.linkB := by rfl

@[simp] theorem State.linkC_onScene (s : State) (f : Scene → Scene) :
    (s.onScene f).linkC = s.linkC := by rfl

@[simp] theorem State.sel_onScene (s : State) (f : Scene → Scene) :
    (s.onScene f).sel = s.sel := by rfl

@[simp] theorem State.mixTerms_onScene (s : State) (f : Scene → Scene) :
    (s.onScene f).mixTerms = s.mixTerms := by rfl

@[simp] theorem State.room_onScene (s : State) (f : Scene → Scene) :
    (s.onScene f).room = s.room := by rfl

@[simp] theorem State.airTemp_onScene (s : State) (f : Scene → Scene) :
    (s.onScene f).airTemp = s.airTemp := by rfl

@[simp] theorem State.members_onScene (s : State) (f : Scene → Scene) :
    (s.onScene f).members = s.members := by rfl

@[simp] theorem State.delayDirty_onScene (s : State) (f : Scene → Scene) :
    (s.onScene f).delayDirty = s.delayDirty := by rfl

@[simp] theorem State.buses_onScene (s : State) (f : Scene → Scene) :
    (s.onScene f).buses = s.buses := by rfl

@[simp] theorem State.outFrame_onScene (s : State) (f : Scene → Scene) :
    (s.onScene f).outFrame = s.outFrame := by rfl

@[simp] theorem State.outMark_onScene (s : State) (f : Scene → Scene) :
    (s.onScene f).outMark = s.outMark := by rfl

@[simp] theorem State.cueing_onScene (s : State) (f : Scene → Scene) :
    (s.onScene f).cueing = s.cueing := by rfl

@[simp] theorem State.portA_onScene (s : State) (f : Scene → Scene) :
    (s.onScene f).portA = s.portA := by rfl

@[simp] theorem State.portB_onScene (s : State) (f : Scene → Scene) :
    (s.onScene f).portB = s.portB := by rfl

@[simp] theorem State.portC_onScene (s : State) (f : Scene → Scene) :
    (s.onScene f).portC = s.portC := by rfl

@[simp] theorem State.ref_onScene (s : State) (f : Scene → Scene) :
    (s.onScene f).ref = s.ref := by rfl

@[simp] theorem State.store_onScene (s : State) (f : Scene → Scene) :
    (s.onScene f).store = s.store := by rfl

@[simp] theorem State.cause_onScene (s : State) (f : Scene → Scene) :
    (s.onScene f).cause = s.cause := by rfl

/-! ### onShow -/

@[simp] theorem State.pending_onShow (s : State) (f : Show → Show) :
    (s.onShow f).pending = s.pending := by rfl

@[simp] theorem State.startup_onShow (s : State) (f : Show → Show) :
    (s.onShow f).startup = s.startup := by rfl

@[simp] theorem State.resetKind_onShow (s : State) (f : Show → Show) :
    (s.onShow f).resetKind = s.resetKind := by rfl

@[simp] theorem State.tick_onShow (s : State) (f : Show → Show) :
    (s.onShow f).tick = s.tick := by rfl

@[simp] theorem State.blockCount_onShow (s : State) (f : Show → Show) :
    (s.onShow f).blockCount = s.blockCount := by rfl

@[simp] theorem State.samplesDone_onShow (s : State) (f : Show → Show) :
    (s.onShow f).samplesDone = s.samplesDone := by rfl

@[simp] theorem State.blockEndOpen_onShow (s : State) (f : Show → Show) :
    (s.onShow f).blockEndOpen = s.blockEndOpen := by rfl

@[simp] theorem State.mixing_onShow (s : State) (f : Show → Show) :
    (s.onShow f).mixing = s.mixing := by rfl

@[simp] theorem State.linkA_onShow (s : State) (f : Show → Show) :
    (s.onShow f).linkA = s.linkA := by rfl

@[simp] theorem State.linkB_onShow (s : State) (f : Show → Show) :
    (s.onShow f).linkB = s.linkB := by rfl

@[simp] theorem State.linkC_onShow (s : State) (f : Show → Show) :
    (s.onShow f).linkC = s.linkC := by rfl

@[simp] theorem State.sel_onShow (s : State) (f : Show → Show) :
    (s.onShow f).sel = s.sel := by rfl

@[simp] theorem State.scene_onShow (s : State) (f : Show → Show) :
    (s.onShow f).scene = s.scene := by rfl

@[simp] theorem State.mixTerms_onShow (s : State) (f : Show → Show) :
    (s.onShow f).mixTerms = s.mixTerms := by rfl

@[simp] theorem State.room_onShow (s : State) (f : Show → Show) :
    (s.onShow f).room = s.room := by rfl

@[simp] theorem State.airTemp_onShow (s : State) (f : Show → Show) :
    (s.onShow f).airTemp = s.airTemp := by rfl

@[simp] theorem State.members_onShow (s : State) (f : Show → Show) :
    (s.onShow f).members = s.members := by rfl

@[simp] theorem State.delayDirty_onShow (s : State) (f : Show → Show) :
    (s.onShow f).delayDirty = s.delayDirty := by rfl

@[simp] theorem State.buses_onShow (s : State) (f : Show → Show) :
    (s.onShow f).buses = s.buses := by rfl

@[simp] theorem State.outFrame_onShow (s : State) (f : Show → Show) :
    (s.onShow f).outFrame = s.outFrame := by rfl

@[simp] theorem State.outMark_onShow (s : State) (f : Show → Show) :
    (s.onShow f).outMark = s.outMark := by rfl

@[simp] theorem State.portA_onShow (s : State) (f : Show → Show) :
    (s.onShow f).portA = s.portA := by rfl

@[simp] theorem State.portB_onShow (s : State) (f : Show → Show) :
    (s.onShow f).portB = s.portB := by rfl

@[simp] theorem State.portC_onShow (s : State) (f : Show → Show) :
    (s.onShow f).portC = s.portC := by rfl

@[simp] theorem State.ref_onShow (s : State) (f : Show → Show) :
    (s.onShow f).ref = s.ref := by rfl

@[simp] theorem State.store_onShow (s : State) (f : Show → Show) :
    (s.onShow f).store = s.store := by rfl

@[simp] theorem State.cause_onShow (s : State) (f : Show → Show) :
    (s.onShow f).cause = s.cause := by rfl

/-! ### onBus -/

@[simp] theorem State.pending_onBus (s : State) (i : Nat) (f : Bus → Bus) :
    (s.onBus i f).pending = s.pending := by rfl

@[simp] theorem State.startup_onBus (s : State) (i : Nat) (f : Bus → Bus) :
    (s.onBus i f).startup = s.startup := by rfl

@[simp] theorem State.resetKind_onBus (s : State) (i : Nat) (f : Bus → Bus) :
    (s.onBus i f).resetKind = s.resetKind := by rfl

@[simp] theorem State.tick_onBus (s : State) (i : Nat) (f : Bus → Bus) :
    (s.onBus i f).tick = s.tick := by rfl

@[simp] theorem State.blockCount_onBus (s : State) (i : Nat) (f : Bus → Bus) :
    (s.onBus i f).blockCount = s.blockCount := by rfl

@[simp] theorem State.samplesDone_onBus (s : State) (i : Nat) (f : Bus → Bus) :
    (s.onBus i f).samplesDone = s.samplesDone := by rfl

@[simp] theorem State.blockEndOpen_onBus (s : State) (i : Nat) (f : Bus → Bus) :
    (s.onBus i f).blockEndOpen = s.blockEndOpen := by rfl

@[simp] theorem State.mixing_onBus (s : State) (i : Nat) (f : Bus → Bus) :
    (s.onBus i f).mixing = s.mixing := by rfl

@[simp] theorem State.linkA_onBus (s : State) (i : Nat) (f : Bus → Bus) :
    (s.onBus i f).linkA = s.linkA := by rfl

@[simp] theorem State.linkB_onBus (s : State) (i : Nat) (f : Bus → Bus) :
    (s.onBus i f).linkB = s.linkB := by rfl

@[simp] theorem State.linkC_onBus (s : State) (i : Nat) (f : Bus → Bus) :
    (s.onBus i f).linkC = s.linkC := by rfl

@[simp] theorem State.sel_onBus (s : State) (i : Nat) (f : Bus → Bus) :
    (s.onBus i f).sel = s.sel := by rfl

@[simp] theorem State.scene_onBus (s : State) (i : Nat) (f : Bus → Bus) :
    (s.onBus i f).scene = s.scene := by rfl

@[simp] theorem State.mixTerms_onBus (s : State) (i : Nat) (f : Bus → Bus) :
    (s.onBus i f).mixTerms = s.mixTerms := by rfl

@[simp] theorem State.room_onBus (s : State) (i : Nat) (f : Bus → Bus) :
    (s.onBus i f).room = s.room := by rfl

@[simp] theorem State.airTemp_onBus (s : State) (i : Nat) (f : Bus → Bus) :
    (s.onBus i f).airTemp = s.airTemp := by rfl

@[simp] theorem State.members_onBus (s : State) (i : Nat) (f : Bus → Bus) :
    (s.onBus i f).members = s.members := by rfl

@[simp] theorem State.delayDirty_onBus (s : State) (i : Nat) (f : Bus → Bus) :
    (s.onBus i f).delayDirty = s.delayDirty := by rfl

@[simp] theorem State.outFrame_onBus (s : State) (i : Nat) (f : Bus → Bus) :
    (s.onBus i f).outFrame = s.outFrame := by rfl

@[simp] theorem State.outMark_onBus (s : State) (i : Nat) (f : Bus → Bus) :
    (s.onBus i f).outMark = s.outMark := by rfl

@[simp] theorem State.cueing_onBus (s : State) (i : Nat) (f : Bus → Bus) :
    (s.onBus i f).cueing = s.cueing := by rfl

@[simp] theorem State.portA_onBus (s : State) (i : Nat) (f : Bus → Bus) :
    (s.onBus i f).portA = s.portA := by rfl

@[simp] theorem State.portB_onBus (s : State) (i : Nat) (f : Bus → Bus) :
    (s.onBus i f).portB = s.portB := by rfl

@[simp] theorem State.portC_onBus (s : State) (i : Nat) (f : Bus → Bus) :
    (s.onBus i f).portC = s.portC := by rfl

@[simp] theorem State.ref_onBus (s : State) (i : Nat) (f : Bus → Bus) :
    (s.onBus i f).ref = s.ref := by rfl

@[simp] theorem State.store_onBus (s : State) (i : Nat) (f : Bus → Bus) :
    (s.onBus i f).store = s.store := by rfl

@[simp] theorem State.cause_onBus (s : State) (i : Nat) (f : Bus → Bus) :
    (s.onBus i f).cause = s.cause := by rfl

/-! ### runOn -/

@[simp] theorem State.pending_runOn (s : State) (ticks : Nat) :
    (s.runOn ticks).pending = s.pending := by rfl

@[simp] theorem State.startup_runOn (s : State) (ticks : Nat) :
    (s.runOn ticks).startup = s.startup := by rfl

@[simp] theorem State.resetKind_runOn (s : State) (ticks : Nat) :
    (s.runOn ticks).resetKind = s.resetKind := by rfl

@[simp] theorem State.blockCount_runOn (s : State) (ticks : Nat) :
    (s.runOn ticks).blockCount = s.blockCount := by rfl

@[simp] theorem State.samplesDone_runOn (s : State) (ticks : Nat) :
    (s.runOn ticks).samplesDone = s.samplesDone := by rfl

@[simp] theorem State.blockEndOpen_runOn (s : State) (ticks : Nat) :
    (s.runOn ticks).blockEndOpen = s.blockEndOpen := by rfl

@[simp] theorem State.mixing_runOn (s : State) (ticks : Nat) :
    (s.runOn ticks).mixing = s.mixing := by rfl

@[simp] theorem State.linkA_runOn (s : State) (ticks : Nat) :
    (s.runOn ticks).linkA = s.linkA := by rfl

@[simp] theorem State.linkB_runOn (s : State) (ticks : Nat) :
    (s.runOn ticks).linkB = s.linkB := by rfl

@[simp] theorem State.linkC_runOn (s : State) (ticks : Nat) :
    (s.runOn ticks).linkC = s.linkC := by rfl

@[simp] theorem State.sel_runOn (s : State) (ticks : Nat) :
    (s.runOn ticks).sel = s.sel := by rfl

@[simp] theorem State.scene_runOn (s : State) (ticks : Nat) :
    (s.runOn ticks).scene = s.scene := by rfl

@[simp] theorem State.mixTerms_runOn (s : State) (ticks : Nat) :
    (s.runOn ticks).mixTerms = s.mixTerms := by rfl

@[simp] theorem State.room_runOn (s : State) (ticks : Nat) :
    (s.runOn ticks).room = s.room := by rfl

@[simp] theorem State.airTemp_runOn (s : State) (ticks : Nat) :
    (s.runOn ticks).airTemp = s.airTemp := by rfl

@[simp] theorem State.members_runOn (s : State) (ticks : Nat) :
    (s.runOn ticks).members = s.members := by rfl

@[simp] theorem State.delayDirty_runOn (s : State) (ticks : Nat) :
    (s.runOn ticks).delayDirty = s.delayDirty := by rfl

@[simp] theorem State.buses_runOn (s : State) (ticks : Nat) :
    (s.runOn ticks).buses = s.buses := by rfl

@[simp] theorem State.outFrame_runOn (s : State) (ticks : Nat) :
    (s.runOn ticks).outFrame = s.outFrame := by rfl

@[simp] theorem State.outMark_runOn (s : State) (ticks : Nat) :
    (s.runOn ticks).outMark = s.outMark := by rfl

@[simp] theorem State.cueing_runOn (s : State) (ticks : Nat) :
    (s.runOn ticks).cueing = s.cueing := by rfl

@[simp] theorem State.portA_runOn (s : State) (ticks : Nat) :
    (s.runOn ticks).portA = s.portA := by rfl

@[simp] theorem State.portB_runOn (s : State) (ticks : Nat) :
    (s.runOn ticks).portB = s.portB := by rfl

@[simp] theorem State.portC_runOn (s : State) (ticks : Nat) :
    (s.runOn ticks).portC = s.portC := by rfl

@[simp] theorem State.ref_runOn (s : State) (ticks : Nat) :
    (s.runOn ticks).ref = s.ref := by rfl

@[simp] theorem State.store_runOn (s : State) (ticks : Nat) :
    (s.runOn ticks).store = s.store := by rfl

@[simp] theorem State.cause_runOn (s : State) (ticks : Nat) :
    (s.runOn ticks).cause = s.cause := by rfl

/-! ### countBlock -/

@[simp] theorem State.pending_countBlock (s : State)  :
    (s.countBlock).pending = s.pending := by rfl

@[simp] theorem State.startup_countBlock (s : State)  :
    (s.countBlock).startup = s.startup := by rfl

@[simp] theorem State.resetKind_countBlock (s : State)  :
    (s.countBlock).resetKind = s.resetKind := by rfl

@[simp] theorem State.blockEndOpen_countBlock (s : State)  :
    (s.countBlock).blockEndOpen = s.blockEndOpen := by rfl

@[simp] theorem State.mixing_countBlock (s : State)  :
    (s.countBlock).mixing = s.mixing := by rfl

@[simp] theorem State.linkA_countBlock (s : State)  :
    (s.countBlock).linkA = s.linkA := by rfl

@[simp] theorem State.linkB_countBlock (s : State)  :
    (s.countBlock).linkB = s.linkB := by rfl

@[simp] theorem State.linkC_countBlock (s : State)  :
    (s.countBlock).linkC = s.linkC := by rfl

@[simp] theorem State.sel_countBlock (s : State)  :
    (s.countBlock).sel = s.sel := by rfl

@[simp] theorem State.scene_countBlock (s : State)  :
    (s.countBlock).scene = s.scene := by rfl

@[simp] theorem State.mixTerms_countBlock (s : State)  :
    (s.countBlock).mixTerms = s.mixTerms := by rfl

@[simp] theorem State.room_countBlock (s : State)  :
    (s.countBlock).room = s.room := by rfl

@[simp] theorem State.airTemp_countBlock (s : State)  :
    (s.countBlock).airTemp = s.airTemp := by rfl

@[simp] theorem State.members_countBlock (s : State)  :
    (s.countBlock).members = s.members := by rfl

@[simp] theorem State.delayDirty_countBlock (s : State)  :
    (s.countBlock).delayDirty = s.delayDirty := by rfl

@[simp] theorem State.buses_countBlock (s : State)  :
    (s.countBlock).buses = s.buses := by rfl

@[simp] theorem State.outFrame_countBlock (s : State)  :
    (s.countBlock).outFrame = s.outFrame := by rfl

@[simp] theorem State.outMark_countBlock (s : State)  :
    (s.countBlock).outMark = s.outMark := by rfl

@[simp] theorem State.cueing_countBlock (s : State)  :
    (s.countBlock).cueing = s.cueing := by rfl

@[simp] theorem State.portA_countBlock (s : State)  :
    (s.countBlock).portA = s.portA := by rfl

@[simp] theorem State.portB_countBlock (s : State)  :
    (s.countBlock).portB = s.portB := by rfl

@[simp] theorem State.portC_countBlock (s : State)  :
    (s.countBlock).portC = s.portC := by rfl

@[simp] theorem State.ref_countBlock (s : State)  :
    (s.countBlock).ref = s.ref := by rfl

@[simp] theorem State.store_countBlock (s : State)  :
    (s.countBlock).store = s.store := by rfl

@[simp] theorem State.cause_countBlock (s : State)  :
    (s.countBlock).cause = s.cause := by rfl

/-! ### countSample -/

@[simp] theorem State.pending_countSample (s : State)  :
    (s.countSample).pending = s.pending := by rfl

@[simp] theorem State.startup_countSample (s : State)  :
    (s.countSample).startup = s.startup := by rfl

@[simp] theorem State.resetKind_countSample (s : State)  :
    (s.countSample).resetKind = s.resetKind := by rfl

@[simp] theorem State.blockCount_countSample (s : State)  :
    (s.countSample).blockCount = s.blockCount := by rfl

@[simp] theorem State.blockEndOpen_countSample (s : State)  :
    (s.countSample).blockEndOpen = s.blockEndOpen := by rfl

@[simp] theorem State.mixing_countSample (s : State)  :
    (s.countSample).mixing = s.mixing := by rfl

@[simp] theorem State.linkA_countSample (s : State)  :
    (s.countSample).linkA = s.linkA := by rfl

@[simp] theorem State.linkB_countSample (s : State)  :
    (s.countSample).linkB = s.linkB := by rfl

@[simp] theorem State.linkC_countSample (s : State)  :
    (s.countSample).linkC = s.linkC := by rfl

@[simp] theorem State.sel_countSample (s : State)  :
    (s.countSample).sel = s.sel := by rfl

@[simp] theorem State.scene_countSample (s : State)  :
    (s.countSample).scene = s.scene := by rfl

@[simp] theorem State.mixTerms_countSample (s : State)  :
    (s.countSample).mixTerms = s.mixTerms := by rfl

@[simp] theorem State.room_countSample (s : State)  :
    (s.countSample).room = s.room := by rfl

@[simp] theorem State.airTemp_countSample (s : State)  :
    (s.countSample).airTemp = s.airTemp := by rfl

@[simp] theorem State.members_countSample (s : State)  :
    (s.countSample).members = s.members := by rfl

@[simp] theorem State.delayDirty_countSample (s : State)  :
    (s.countSample).delayDirty = s.delayDirty := by rfl

@[simp] theorem State.buses_countSample (s : State)  :
    (s.countSample).buses = s.buses := by rfl

@[simp] theorem State.outFrame_countSample (s : State)  :
    (s.countSample).outFrame = s.outFrame := by rfl

@[simp] theorem State.cueing_countSample (s : State)  :
    (s.countSample).cueing = s.cueing := by rfl

@[simp] theorem State.portA_countSample (s : State)  :
    (s.countSample).portA = s.portA := by rfl

@[simp] theorem State.portB_countSample (s : State)  :
    (s.countSample).portB = s.portB := by rfl

@[simp] theorem State.portC_countSample (s : State)  :
    (s.countSample).portC = s.portC := by rfl

@[simp] theorem State.ref_countSample (s : State)  :
    (s.countSample).ref = s.ref := by rfl

@[simp] theorem State.store_countSample (s : State)  :
    (s.countSample).store = s.store := by rfl

@[simp] theorem State.cause_countSample (s : State)  :
    (s.countSample).cause = s.cause := by rfl

/-! ### markDue -/

@[simp] theorem State.pending_markDue (s : State)  :
    (s.markDue).pending = s.pending := by rfl

@[simp] theorem State.startup_markDue (s : State)  :
    (s.markDue).startup = s.startup := by rfl

@[simp] theorem State.resetKind_markDue (s : State)  :
    (s.markDue).resetKind = s.resetKind := by rfl

@[simp] theorem State.tick_markDue (s : State)  :
    (s.markDue).tick = s.tick := by rfl

@[simp] theorem State.blockCount_markDue (s : State)  :
    (s.markDue).blockCount = s.blockCount := by rfl

@[simp] theorem State.samplesDone_markDue (s : State)  :
    (s.markDue).samplesDone = s.samplesDone := by rfl

@[simp] theorem State.blockEndOpen_markDue (s : State)  :
    (s.markDue).blockEndOpen = s.blockEndOpen := by rfl

@[simp] theorem State.mixing_markDue (s : State)  :
    (s.markDue).mixing = s.mixing := by rfl

@[simp] theorem State.linkA_markDue (s : State)  :
    (s.markDue).linkA = s.linkA := by rfl

@[simp] theorem State.linkB_markDue (s : State)  :
    (s.markDue).linkB = s.linkB := by rfl

@[simp] theorem State.linkC_markDue (s : State)  :
    (s.markDue).linkC = s.linkC := by rfl

@[simp] theorem State.sel_markDue (s : State)  :
    (s.markDue).sel = s.sel := by rfl

@[simp] theorem State.scene_markDue (s : State)  :
    (s.markDue).scene = s.scene := by rfl

@[simp] theorem State.mixTerms_markDue (s : State)  :
    (s.markDue).mixTerms = s.mixTerms := by rfl

@[simp] theorem State.room_markDue (s : State)  :
    (s.markDue).room = s.room := by rfl

@[simp] theorem State.airTemp_markDue (s : State)  :
    (s.markDue).airTemp = s.airTemp := by rfl

@[simp] theorem State.members_markDue (s : State)  :
    (s.markDue).members = s.members := by rfl

@[simp] theorem State.delayDirty_markDue (s : State)  :
    (s.markDue).delayDirty = s.delayDirty := by rfl

@[simp] theorem State.buses_markDue (s : State)  :
    (s.markDue).buses = s.buses := by rfl

@[simp] theorem State.outFrame_markDue (s : State)  :
    (s.markDue).outFrame = s.outFrame := by rfl

@[simp] theorem State.outMark_markDue (s : State)  :
    (s.markDue).outMark = s.outMark := by rfl

@[simp] theorem State.cueing_markDue (s : State)  :
    (s.markDue).cueing = s.cueing := by rfl

@[simp] theorem State.ref_markDue (s : State)  :
    (s.markDue).ref = s.ref := by rfl

@[simp] theorem State.store_markDue (s : State)  :
    (s.markDue).store = s.store := by rfl

@[simp] theorem State.cause_markDue (s : State)  :
    (s.markDue).cause = s.cause := by rfl

/-! ### dropMarks -/

@[simp] theorem State.pending_dropMarks (s : State)  :
    (s.dropMarks).pending = s.pending := by rfl

@[simp] theorem State.startup_dropMarks (s : State)  :
    (s.dropMarks).startup = s.startup := by rfl

@[simp] theorem State.resetKind_dropMarks (s : State)  :
    (s.dropMarks).resetKind = s.resetKind := by rfl

@[simp] theorem State.tick_dropMarks (s : State)  :
    (s.dropMarks).tick = s.tick := by rfl

@[simp] theorem State.blockCount_dropMarks (s : State)  :
    (s.dropMarks).blockCount = s.blockCount := by rfl

@[simp] theorem State.samplesDone_dropMarks (s : State)  :
    (s.dropMarks).samplesDone = s.samplesDone := by rfl

@[simp] theorem State.blockEndOpen_dropMarks (s : State)  :
    (s.dropMarks).blockEndOpen = s.blockEndOpen := by rfl

@[simp] theorem State.mixing_dropMarks (s : State)  :
    (s.dropMarks).mixing = s.mixing := by rfl

@[simp] theorem State.linkA_dropMarks (s : State)  :
    (s.dropMarks).linkA = s.linkA := by rfl

@[simp] theorem State.linkB_dropMarks (s : State)  :
    (s.dropMarks).linkB = s.linkB := by rfl

@[simp] theorem State.linkC_dropMarks (s : State)  :
    (s.dropMarks).linkC = s.linkC := by rfl

@[simp] theorem State.sel_dropMarks (s : State)  :
    (s.dropMarks).sel = s.sel := by rfl

@[simp] theorem State.mixTerms_dropMarks (s : State)  :
    (s.dropMarks).mixTerms = s.mixTerms := by rfl

@[simp] theorem State.airTemp_dropMarks (s : State)  :
    (s.dropMarks).airTemp = s.airTemp := by rfl

@[simp] theorem State.members_dropMarks (s : State)  :
    (s.dropMarks).members = s.members := by rfl

@[simp] theorem State.delayDirty_dropMarks (s : State)  :
    (s.dropMarks).delayDirty = s.delayDirty := by rfl

@[simp] theorem State.outFrame_dropMarks (s : State)  :
    (s.dropMarks).outFrame = s.outFrame := by rfl

@[simp] theorem State.outMark_dropMarks (s : State)  :
    (s.dropMarks).outMark = s.outMark := by rfl

@[simp] theorem State.portA_dropMarks (s : State)  :
    (s.dropMarks).portA = s.portA := by rfl

@[simp] theorem State.portB_dropMarks (s : State)  :
    (s.dropMarks).portB = s.portB := by rfl

@[simp] theorem State.portC_dropMarks (s : State)  :
    (s.dropMarks).portC = s.portC := by rfl

@[simp] theorem State.ref_dropMarks (s : State)  :
    (s.dropMarks).ref = s.ref := by rfl

@[simp] theorem State.store_dropMarks (s : State)  :
    (s.dropMarks).store = s.store := by rfl

@[simp] theorem State.cause_dropMarks (s : State)  :
    (s.dropMarks).cause = s.cause := by rfl

/-! ### fixBlock -/

@[simp] theorem State.pending_fixBlock (s : State)  :
    (s.fixBlock).pending = s.pending := by rfl

@[simp] theorem State.startup_fixBlock (s : State)  :
    (s.fixBlock).startup = s.startup := by rfl

@[simp] theorem State.resetKind_fixBlock (s : State)  :
    (s.fixBlock).resetKind = s.resetKind := by rfl

@[simp] theorem State.tick_fixBlock (s : State)  :
    (s.fixBlock).tick = s.tick := by rfl

@[simp] theorem State.blockCount_fixBlock (s : State)  :
    (s.fixBlock).blockCount = s.blockCount := by rfl

@[simp] theorem State.samplesDone_fixBlock (s : State)  :
    (s.fixBlock).samplesDone = s.samplesDone := by rfl

@[simp] theorem State.blockEndOpen_fixBlock (s : State)  :
    (s.fixBlock).blockEndOpen = s.blockEndOpen := by rfl

@[simp] theorem State.mixing_fixBlock (s : State)  :
    (s.fixBlock).mixing = s.mixing := by rfl

@[simp] theorem State.linkA_fixBlock (s : State)  :
    (s.fixBlock).linkA = s.linkA := by rfl

@[simp] theorem State.linkB_fixBlock (s : State)  :
    (s.fixBlock).linkB = s.linkB := by rfl

@[simp] theorem State.linkC_fixBlock (s : State)  :
    (s.fixBlock).linkC = s.linkC := by rfl

@[simp] theorem State.scene_fixBlock (s : State)  :
    (s.fixBlock).scene = s.scene := by rfl

@[simp] theorem State.room_fixBlock (s : State)  :
    (s.fixBlock).room = s.room := by rfl

@[simp] theorem State.airTemp_fixBlock (s : State)  :
    (s.fixBlock).airTemp = s.airTemp := by rfl

@[simp] theorem State.members_fixBlock (s : State)  :
    (s.fixBlock).members = s.members := by rfl

@[simp] theorem State.outFrame_fixBlock (s : State)  :
    (s.fixBlock).outFrame = s.outFrame := by rfl

@[simp] theorem State.outMark_fixBlock (s : State)  :
    (s.fixBlock).outMark = s.outMark := by rfl

@[simp] theorem State.portA_fixBlock (s : State)  :
    (s.fixBlock).portA = s.portA := by rfl

@[simp] theorem State.portB_fixBlock (s : State)  :
    (s.fixBlock).portB = s.portB := by rfl

@[simp] theorem State.portC_fixBlock (s : State)  :
    (s.fixBlock).portC = s.portC := by rfl

@[simp] theorem State.ref_fixBlock (s : State)  :
    (s.fixBlock).ref = s.ref := by rfl

@[simp] theorem State.store_fixBlock (s : State)  :
    (s.fixBlock).store = s.store := by rfl

@[simp] theorem State.cause_fixBlock (s : State)  :
    (s.fixBlock).cause = s.cause := by rfl

/-! ### stepMutes -/

@[simp] theorem State.pending_stepMutes (s : State)  :
    (s.stepMutes).pending = s.pending := by rfl

@[simp] theorem State.startup_stepMutes (s : State)  :
    (s.stepMutes).startup = s.startup := by rfl

@[simp] theorem State.resetKind_stepMutes (s : State)  :
    (s.stepMutes).resetKind = s.resetKind := by rfl

@[simp] theorem State.tick_stepMutes (s : State)  :
    (s.stepMutes).tick = s.tick := by rfl

@[simp] theorem State.blockCount_stepMutes (s : State)  :
    (s.stepMutes).blockCount = s.blockCount := by rfl

@[simp] theorem State.samplesDone_stepMutes (s : State)  :
    (s.stepMutes).samplesDone = s.samplesDone := by rfl

@[simp] theorem State.blockEndOpen_stepMutes (s : State)  :
    (s.stepMutes).blockEndOpen = s.blockEndOpen := by rfl

@[simp] theorem State.mixing_stepMutes (s : State)  :
    (s.stepMutes).mixing = s.mixing := by rfl

@[simp] theorem State.linkA_stepMutes (s : State)  :
    (s.stepMutes).linkA = s.linkA := by rfl

@[simp] theorem State.linkB_stepMutes (s : State)  :
    (s.stepMutes).linkB = s.linkB := by rfl

@[simp] theorem State.linkC_stepMutes (s : State)  :
    (s.stepMutes).linkC = s.linkC := by rfl

@[simp] theorem State.sel_stepMutes (s : State)  :
    (s.stepMutes).sel = s.sel := by rfl

@[simp] theorem State.scene_stepMutes (s : State)  :
    (s.stepMutes).scene = s.scene := by rfl

@[simp] theorem State.mixTerms_stepMutes (s : State)  :
    (s.stepMutes).mixTerms = s.mixTerms := by rfl

@[simp] theorem State.room_stepMutes (s : State)  :
    (s.stepMutes).room = s.room := by rfl

@[simp] theorem State.airTemp_stepMutes (s : State)  :
    (s.stepMutes).airTemp = s.airTemp := by rfl

@[simp] theorem State.members_stepMutes (s : State)  :
    (s.stepMutes).members = s.members := by rfl

@[simp] theorem State.delayDirty_stepMutes (s : State)  :
    (s.stepMutes).delayDirty = s.delayDirty := by rfl

@[simp] theorem State.outFrame_stepMutes (s : State)  :
    (s.stepMutes).outFrame = s.outFrame := by rfl

@[simp] theorem State.outMark_stepMutes (s : State)  :
    (s.stepMutes).outMark = s.outMark := by rfl

@[simp] theorem State.cueing_stepMutes (s : State)  :
    (s.stepMutes).cueing = s.cueing := by rfl

@[simp] theorem State.portA_stepMutes (s : State)  :
    (s.stepMutes).portA = s.portA := by rfl

@[simp] theorem State.portB_stepMutes (s : State)  :
    (s.stepMutes).portB = s.portB := by rfl

@[simp] theorem State.portC_stepMutes (s : State)  :
    (s.stepMutes).portC = s.portC := by rfl

@[simp] theorem State.ref_stepMutes (s : State)  :
    (s.stepMutes).ref = s.ref := by rfl

@[simp] theorem State.store_stepMutes (s : State)  :
    (s.stepMutes).store = s.store := by rfl

@[simp] theorem State.cause_stepMutes (s : State)  :
    (s.stepMutes).cause = s.cause := by rfl

/-! ### stepLevels -/

@[simp] theorem State.pending_stepLevels (s : State)  :
    (s.stepLevels).pending = s.pending := by rfl

@[simp] theorem State.startup_stepLevels (s : State)  :
    (s.stepLevels).startup = s.startup := by rfl

@[simp] theorem State.resetKind_stepLevels (s : State)  :
    (s.stepLevels).resetKind = s.resetKind := by rfl

@[simp] theorem State.tick_stepLevels (s : State)  :
    (s.stepLevels).tick = s.tick := by rfl

@[simp] theorem State.blockCount_stepLevels (s : State)  :
    (s.stepLevels).blockCount = s.blockCount := by rfl

@[simp] theorem State.samplesDone_stepLevels (s : State)  :
    (s.stepLevels).samplesDone = s.samplesDone := by rfl

@[simp] theorem State.blockEndOpen_stepLevels (s : State)  :
    (s.stepLevels).blockEndOpen = s.blockEndOpen := by rfl

@[simp] theorem State.mixing_stepLevels (s : State)  :
    (s.stepLevels).mixing = s.mixing := by rfl

@[simp] theorem State.linkA_stepLevels (s : State)  :
    (s.stepLevels).linkA = s.linkA := by rfl

@[simp] theorem State.linkB_stepLevels (s : State)  :
    (s.stepLevels).linkB = s.linkB := by rfl

@[simp] theorem State.linkC_stepLevels (s : State)  :
    (s.stepLevels).linkC = s.linkC := by rfl

@[simp] theorem State.sel_stepLevels (s : State)  :
    (s.stepLevels).sel = s.sel := by rfl

@[simp] theorem State.scene_stepLevels (s : State)  :
    (s.stepLevels).scene = s.scene := by rfl

@[simp] theorem State.mixTerms_stepLevels (s : State)  :
    (s.stepLevels).mixTerms = s.mixTerms := by rfl

@[simp] theorem State.airTemp_stepLevels (s : State)  :
    (s.stepLevels).airTemp = s.airTemp := by rfl

@[simp] theorem State.members_stepLevels (s : State)  :
    (s.stepLevels).members = s.members := by rfl

@[simp] theorem State.delayDirty_stepLevels (s : State)  :
    (s.stepLevels).delayDirty = s.delayDirty := by rfl

@[simp] theorem State.buses_stepLevels (s : State)  :
    (s.stepLevels).buses = s.buses := by rfl

@[simp] theorem State.outFrame_stepLevels (s : State)  :
    (s.stepLevels).outFrame = s.outFrame := by rfl

@[simp] theorem State.outMark_stepLevels (s : State)  :
    (s.stepLevels).outMark = s.outMark := by rfl

@[simp] theorem State.cueing_stepLevels (s : State)  :
    (s.stepLevels).cueing = s.cueing := by rfl

@[simp] theorem State.portA_stepLevels (s : State)  :
    (s.stepLevels).portA = s.portA := by rfl

@[simp] theorem State.portB_stepLevels (s : State)  :
    (s.stepLevels).portB = s.portB := by rfl

@[simp] theorem State.portC_stepLevels (s : State)  :
    (s.stepLevels).portC = s.portC := by rfl

@[simp] theorem State.ref_stepLevels (s : State)  :
    (s.stepLevels).ref = s.ref := by rfl

@[simp] theorem State.store_stepLevels (s : State)  :
    (s.stepLevels).store = s.store := by rfl

@[simp] theorem State.cause_stepLevels (s : State)  :
    (s.stepLevels).cause = s.cause := by rfl

end Sys2Proof.Machine
end

