-- ==== Sys2Proof/Laws/Ops.lean ====
section
/-! SUPPORT. What each shared operation can do, said once: ramps, notices, answers, requests, time and resets. -/

namespace Sys2Proof.Machine

/-! ### Gain ramps -/

/-- A change with ramp length 0 lands at once. -/
@[simp] theorem Ramp.change_zero (t : Nat) (x : Ramp) : x.change t 0 = ⟨t, t, 0, true⟩ := rfl

/-- A change with a ramp length above 0 keeps the current value. -/
theorem Ramp.change_pos {r : Nat} (t : Nat) (x : Ramp) (h : r ≠ 0) : x.change t r = ⟨x.current, t, r, true⟩ := by
  simp [Ramp.change, h]

/-- A changed ramp obeys the ramp law. -/
theorem Ramp.change_lawful (t r : Nat) (x : Ramp) : (x.change t r).Lawful := by
  by_cases h : r = 0
  · subst h; intro _; rfl
  · rw [Ramp.change_pos t x h]; intro h0; exact absurd h0 h

/-- A ramp at rest obeys the ramp law. -/
theorem Ramp.rest_lawful (v : Nat) : (Ramp.rest v).Lawful := fun _ => rfl

/-- Dropping the mark keeps the ramp law. -/
theorem Ramp.settle_lawful {x : Ramp} (h : x.Lawful) : x.settle.Lawful := h

/-- The last step lands on the target. -/
theorem Ramp.step_last {x : Ramp} (h : x.remaining = 1) (hc : x.changed = false) :
    x.step = { x with current := x.target, remaining := 0 } := by
  simp [Ramp.step, Ramp.delta, h, hc]

/-- A step keeps the ramp law. -/
theorem Ramp.step_lawful {x : Ramp} (h : x.Lawful) : x.step.Lawful := by
  unfold Ramp.step
  split
  · exact h
  · rename_i hn
    simp only [not_or, Bool.not_eq_true] at hn
    intro h0
    have h1 : x.remaining = 1 := by simp only at h0; omega
    simp [Ramp.delta, h1]

/-- A restored ramp obeys the ramp law. -/
theorem Ramp.restore_lawful {x : Ramp} (t r : Nat) (h : x.Lawful) : (x.restore t r).Lawful := by
  unfold Ramp.restore
  split
  · exact h
  · exact Ramp.change_lawful t r x

/-! ### Notices -/

/-- A raised event is pending. -/
@[simp] theorem Port.isRaised_raise (n : Notice) (x : Port) : (x.raise n).isRaised n = true := by
  cases n <;> simp [Port.raise, Port.isRaised, Notice.bit]

/-- Raising changes a port's pending set alone. -/
theorem Port.raise_eq (n : Notice) (x : Port) : x.raise n = { x with raised := (x.raise n).raised } := rfl

/-! ### Requests -/

/-- A takable request that is presented is taken. -/
theorem State.present_takable {p : PortId} {r : Request} {s : State} (h : Takable p r s) :
    s.present p r = takeRequest p r s := by
  obtain ⟨h1, h2, h3⟩ := h
  have h4 : s.ticking = true := by simp [State.ticking, h1]
  have h5 : s.mayTake p = true := by
    rcases h3 with h | ⟨ho, hd⟩
    · simp [State.mayTake, h]
    · simp [State.mayTake, ho, hd]
  simp [State.present, h2, h4, h5]

/-- A request takable in LOADING that is presented is taken (R174). -/
theorem State.present_takableLoading {p : PortId} {r : Request} {s : State} (h : TakableLoading p r s) :
    s.present p r = takeRequest p r s := by
  obtain ⟨h1, h2, h3⟩ := h
  have h4 : s.ticking = true := by simp [State.ticking, h1]
  have h5 : s.mayTake p = true := by
    rcases h3 with h | ⟨ho, hd⟩
    · simp [State.mayTake, h]
    · simp [State.mayTake, ho, hd]
  simp [State.present, h2, h4, h5]

/-- In RESET and without power a presented request does nothing. -/
theorem State.present_off {p : PortId} {r : Request} {s : State} (h : s.ticking = false) : s.present p r = s := by
  simp [State.present, h]

/-- With a request waiting, an accepted one becomes a BUSY refusal (R153). -/
theorem State.accept_busy {p : PortId} {s : State} (code : Byte) (c : Checked)
    (h : (s.port p).waiting.isSome = true) : s.accept p code c = s.onPort p (Port.refuse code) := by
  obtain ⟨r, hr⟩ := Option.isSome_iff_exists.mp h
  simp [State.accept, hr]

/-- With none waiting, held answers are discarded and the checks decide (R152, R153). -/
theorem State.accept_free {p : PortId} {s : State} (code : Byte) (c : Checked) (h : (s.port p).waiting = none) :
    s.accept p code c = (s.onPort p Port.discard).settleRequest p c := by simp [State.accept, h]

/-- An answer keeps the engine law of its port. -/
theorem State.answer_lawful (s : State) (p : PortId) (code : Byte) (status : Status) (payload : List Byte) :
    ((s.answer p code status payload).port p).Lawful := by simp [State.port_answer, Port.Lawful]

/-- Nothing to close leaves a closed block end. -/
@[simp] theorem State.closeBlockEnd_closed {s : State} (h : s.blockEndOpen = false) : s.closeBlockEnd = s := by
  simp [State.closeBlockEnd, h]

/-- A port without a due request is left alone by the sweep. -/
theorem State.sweep_of_not_due {p : PortId} {s : State} (h : (s.port p).due = false) : s.sweep p = s := by
  unfold State.sweep
  split
  · rfl
  · simp [h]

/-- A due request is taken by the sweep (R154). -/
theorem State.sweep_of_due {p : PortId} {r : Request} {s : State} (hw : (s.port p).waiting = some r)
    (hd : (s.port p).due = true) : s.sweep p = takeRequest p r s := by simp [State.sweep, hw, hd]

/-- With nothing due, the close of an open block end settles it. -/
theorem State.closeBlockEnd_of_not_due {s : State} (ho : s.blockEndOpen = true) (h : ∀ p, (s.port p).due = false) :
    s.closeBlockEnd = s.settleBlockEnd := by
  simp [State.closeBlockEnd, ho, State.sweep_of_not_due (h .A), State.sweep_of_not_due (h .B),
    State.sweep_of_not_due (h .C)]

/-- Where no tick can pass, none does, and an open block end stays open. -/
theorem State.passTicks_of_stopped {n : Nat} {s : State} (h : min n s.runLimit = 0) : s.passTicks n = s := by
  simp [State.passTicks, h]

/-- Where a tick passes, it closes the block end first (log 4). -/
theorem State.passTicks_of_passing {n : Nat} {s : State} (h : min n s.runLimit ≠ 0) :
    s.passTicks n = s.closeBlockEnd.runOn n := by simp [State.passTicks, h]

/-- A closed block end is not touched by a deadline. -/
theorem State.closeBefore_closed {d : Option Tick} {s : State} (h : s.blockEndOpen = false) : s.closeBefore d = s := by
  unfold State.closeBefore
  split
  · rfl
  · split
    · exact State.closeBlockEnd_closed h
    · rfl

/-- A work that is still to be done is done where the order names it. -/
theorem State.runEvents_work {e : Ending} {w : Work} {rest : List BlockEvent} {left : List Work} {s : State}
    (h : w ∈ left) : State.runEvents e (.work w :: rest) left s = State.runEvents e rest (left.erase w) (s.doWork e w) := by
  simp [State.runEvents, h]

/-- A request is taken where the order names its port. -/
theorem State.runEvents_take (e : Ending) (p : PortId) (rest : List BlockEvent) (left : List Work) (s : State) :
    State.runEvents e (.take p :: rest) left s = State.runEvents e rest left (s.sweep p) := rfl

/-! ### Slips and the start index -/

/-- A further slip of a read position that is fresh from a slip keeps the origin of the first. -/
theorem Link.slipOrigin_of_slip {o : FrameIndex} {x : Link} (h : x.fresh = .slip o) : x.slipOrigin = o := by
  simp [Link.slipOrigin, h]

/-- The first slip keeps the read index that it leaves. -/
theorem Link.slipOrigin_of_read {p : ReadPos} {x : Link} (h : ∀ o, x.fresh ≠ .slip o) (hp : x.readPos = some p) :
    x.slipOrigin = p.index := by
  unfold Link.slipOrigin
  split
  · rename_i ho; exact absurd ho (h _)
  · rename_i hq _; rw [hp] at hq; cases hq; rfl
  · rename_i hq _; rw [hp] at hq; cases hq

/-- Outside an open block end the index is the read position's. -/
theorem State.indexHere_closed {x : ProgLink} {s : State} (h : s.blockEndOpen = false) :
    s.indexHere x = (s.link (progLink x)).readPos.map ReadPos.index := by
  unfold State.indexHere
  congr 1
  funext p
  split <;> simp [h]

/-- The index of a read position that no slip has made fresh is its own. -/
theorem State.indexHere_of_not_slipped {x : ProgLink} {s : State} (h : ∀ o, (s.link (progLink x)).fresh ≠ .slip o) :
    s.indexHere x = (s.link (progLink x)).readPos.map ReadPos.index := by
  unfold State.indexHere
  congr 1
  funext p
  split
  · rename_i ho; exact absurd ho (h _)
  · rfl

/-- A slip at an open block end leaves the index from before it (log 4). -/
theorem State.indexHere_of_slipped {x : ProgLink} {s : State} {o : FrameIndex} {p : ReadPos}
    (ho : s.blockEndOpen = true) (hf : (s.link (progLink x)).fresh = .slip o)
    (hp : (s.link (progLink x)).readPos = some p) : s.indexHere x = some o := by
  simp [State.indexHere, ho, hf, hp]

/-! ### Records -/

/-- A record that passes its checks acts on the scene table alone (R83 to R88). -/
theorem State.applyRecord_act {x : ProgLink} {tracks : Nat} {s : State} {r : Tagged}
    (h : s.scene.reject tracks r.body = none) : s.applyRecord x tracks r = { s with scene := s.scene.act r.body } := by
  simp [State.applyRecord, h]

/-- Whatever becomes of a record, the scene table is what the record makes of the one it finds (R83). -/
theorem State.applyRecord_scene (x : ProgLink) (tracks : Nat) (s : State) (r : Tagged) :
    (s.applyRecord x tracks r).scene =
      match s.scene.reject tracks r.body with
      | none => s.scene.act r.body
      | some _ => s.scene := by
  unfold State.applyRecord
  split
  · simp [*]
  · simp [*]

/-! ### Values -/

/-- A saturated value is a sample (R46, R141). -/
theorem saturate_isSample (x : Int) : IsSample (saturate x) := by
  simp only [IsSample, saturate, clampInt, Config.sampleMin, Config.sampleMax]; omega

/-- Smoothing stays in the step's range (R34). -/
theorem smooth_inRange {a t : Int} (ha : InStepRange a) (ht : InStepRange t) : InStepRange (smooth a t) := by
  simp only [InStepRange, smooth] at *
  rcases Int.le_total 0 (t - a) with h | h
  · have := Int.tdiv_eq_ediv_of_nonneg (b := 4) h; omega
  · have h2 := Int.neg_tdiv (t - a) 4
    have h3 := Int.tdiv_eq_ediv_of_nonneg (a := -(t - a)) (b := 4) (by omega); omega

/-- The target lies in the step's range (R33). -/
theorem targetOffset_inRange (m : Int) (fill : Nat) : InStepRange (targetOffset m fill) := by
  simp only [InStepRange, targetOffset, clampInt, Config.stepBound]; omega

/-- A queue cut to its newest entries holds no more than the limit. -/
theorem keepLast_length {α : Type} (n : Nat) (xs : List α) : (keepLast n xs).length ≤ n := by
  simp only [keepLast, List.length_drop]; omega

/-! ### Reset (R173) -/

/-- A reset leaves every block as State.reset has it; the queue, the nonvolatile memory, the cause record and what the
reference input showed stay. -/
theorem State.toReset_eq (kind : ResetKind) (s : State) :
    s.toReset kind = { State.reset with
      pending := s.pending, resetKind := kind, store := ⟨s.store.memory, false, none, .untried⟩, cause := s.cause,
      ref := { State.reset.ref with edgeRecent := s.ref.edgeRecent } } := rfl

end Sys2Proof.Machine
end

