-- ==== Sys2Proof/Tests/Slice0.lean ====
section
/-! SUPPORT. Tests: what well-formedness refuses, the worked cases of spec/, a small test for each command, and a
witness for the hypotheses of each statement. Every expected result is taken from spec/ or worked by hand from its
rules; the docstring says which. -/

open Sys2Proof Sys2Proof.Machine

namespace Sys2Proof.Tests

set_option Elab.async false
set_option maxRecDepth 20000

/-! ### Helpers -/

/-- The state that a command leaves. -/
def after (c : Instr) (s : State) : State :=
  match exec c s with
  | .next t => t
  | _ => s

/-- A part in RUN. -/
def running : State := { State.reset with startup := .run }

/-- A part in RUN at the instant of a block end, where port `p` holds the waiting request `r`. -/
def ready (p : PortId) (r : Request) : State :=
  ({ running with samplesDone := 32 } : State).onPort p fun x => { x with waiting := some r }

/-- A block end that names no order of its events: the works are done in their fixed order. -/
def order : List BlockEvent := []

/-- A request that is ready may be taken: the witness for every statement about taking a request. -/
theorem ready_takable (p : PortId) (r : Request) : Takable p r (ready p r) := by
  cases p <;> exact ⟨rfl, rfl, Or.inl rfl⟩

/-- A link in LOCKED with a fill of 128 and a fresh capture history. -/
def lockedLink (w : Nat) : Link :=
  { Link.reset w with
    state := .locked, written := 288, held := 256, readPos := some ⟨160, 0⟩, seq := 48,
    stamps := [⟨160, ⟨3, 2400128⟩, .play, 2, false⟩], gapDeadline := some 1180224 }

/-- The bytes of a feed block of one track at reel 3, frame 1,200, offset 0 (R165), all of whose samples are 1. -/
def blockBytes (l : LinkId) (seq : Byte) (records : List Byte) (count : Byte) (status : Byte) : List Byte :=
  let body := [marker l, seq, 1, 3, 0x04, 0xB0, 0, 0, 1, count] ++ (List.replicate 32 [0, 0, 1]).flatten ++ records ++
    [0, status]
  body ++ bytes16 (crc16 body).toNat

/-- The block's symbols after its START. -/
def blockSymbols (l : LinkId) (seq : Byte) (records : List Byte) (count status : Byte) : List Symbol :=
  (blockBytes l seq records count status).map Symbol.data

/-- The block that those bytes spell, without records. -/
def block (l : LinkId) (seq : Byte) : FeedBlock :=
  ⟨⟨seq, .play, ⟨3, 2400000⟩, 1, 0⟩, List.replicate 32 (1 :: List.replicate (linkWidth l - 1) 0), [], .ok, .unpulled⟩

/-- A part in RUN at an open block end, with both kinds of deadline at its instant. -/
def atOpenEnd : State :=
  { running with
    blockEndOpen := true, tick := 16384, blockCount := 1,
    linkA := { lockedLink 112 with gapDeadline := some 16384 },
    linkB := { Link.reset 112 with holdDeadline := some 16384 } }

/-- An open block end at which port `p`'s request `r` is due. -/
def dueAt (p : PortId) (r : Request) : State := atOpenEnd.onPort p fun x => { x with waiting := some r, due := true }

/-- A part in LOADING at an open block end at which port `p`'s request `r` is due. -/
def loadingAt (p : PortId) (r : Request) : State := { dueAt p r with startup := .loading }

/-- A request that waits in LOADING may be taken at a block end. -/
theorem loadingAt_takable (p : PortId) (r : Request) : TakableLoading p r (loadingAt p r) := by
  cases p <;> exact ⟨rfl, rfl, Or.inr ⟨rfl, rfl⟩⟩

/-- Link A the programme and link B a standby that has written `age` frames from the same frame on. -/
def pair (age : Nat) : State :=
  { running with
    linkA := lockedLink 112, linkB := { lockedLink 112 with written := BitVec.ofNat 32 (160 + age) },
    sel := { Selector.reset with cur := .on .A, inForce := .on .A } }

/-- A part in RUN whose link `l` is `x` and has had a START with the given capture. -/
def started (l : LinkId) (capture : Tick) (x : Link) : State :=
  running.setLink l { x with phase := .assemble capture [] }

/-! ### Well-formedness refuses each ill-formed operand -/

theorem test_wf_start : (Instr.startSymbol .A 512).wf = false := by decide +kernel

theorem test_wf_getSlot : (Instr.getSlot .A .room 256).wf = false := by decide +kernel

theorem test_wf_roomSlotSet :
    [Instr.roomSlotSet .C 256 0 0 0 [⟨0, 0⟩], .roomSlotSet .C 0 256 0 0 [⟨0, 0⟩], .roomSlotSet .C 0 0 65536 0 [⟨0, 0⟩],
      .roomSlotSet .C 0 0 0 256 [⟨0, 0⟩], .roomSlotSet .C 0 0 0 0 (List.replicate 82 ⟨0, 0⟩),
      .roomSlotSet .C 0 0 0 0 [⟨256, 0⟩], .roomSlotSet .C 0 0 0 0 [⟨0, 65536⟩]].all (fun i => !i.wf) = true := by
  decide +kernel

theorem test_wf_roomSlotGain :
    [Instr.roomSlotGain .C 256 0 0, .roomSlotGain .C 0 65536 0, .roomSlotGain .C 0 0 256,
      .roomSlotClear .C 256].all (fun i => !i.wf) = true := by decide +kernel

theorem test_wf_reads :
    [Instr.getMeters .A 256, .getCounters .A 256, .getStatus .A 256, .cueList .A 256].all (fun i => !i.wf) = true := by
  decide +kernel

theorem test_wf_cueAdd :
    [Instr.cueAdd .A ⟨256, some 1, none, none, .once, .notify⟩, .cueAdd .A ⟨1, some 256, none, none, .once, .notify⟩,
      .cueAdd .A ⟨1, none, some 65536, none, .once, .notify⟩, .cueAdd .A ⟨1, none, none, some 65536, .once, .notify⟩,
      .cueAdd .A ⟨1, some 1, none, none, .once, .programmeLevel 65536 0⟩,
      .cueAdd .A ⟨1, some 1, none, none, .once, .programmeLevel 0 256⟩,
      .cueAdd .A ⟨1, some 1, none, none, .once, .roomPush (some 65536) none 0⟩,
      .cueAdd .A ⟨1, some 1, none, none, .once, .roomPush none (some 65536) 0⟩,
      .cueAdd .A ⟨1, some 1, none, none, .once, .roomPush none none 256⟩,
      .cueAdd .A ⟨1, some 1, none, none, .once, .roomPop 256⟩,
      .cueAdd .A ⟨1, some 1, none, none, .once, .muteGroup 256 true⟩, .cueCancel .A 256].all (fun i => !i.wf) = true := by
  decide +kernel

theorem test_wf_levels :
    [Instr.setProgrammeLevel .C 65536 0, .setProgrammeLevel .C 0 256, .setMasterLevel .C 65536 0,
      .setMasterLevel .C 0 256, .muteGroup .C 256 true, .roomPush .A (some 65536) none 0, .roomPush .A none (some 65536) 0,
      .roomPush .A none none 256, .roomPop .A 256].all (fun i => !i.wf) = true := by decide +kernel

theorem test_wf_output :
    [Instr.setBusTrim .C 256 0, .setBusTrim .C 0 65536, .setMuteGroup .C 256 [], .setMuteGroup .C 0 (List.replicate 249 0),
      .setMuteGroup .C 0 [256], .setAirTemp .C (-129), .setAirTemp .C 128, .setBusDistance .C 256 0,
      .setBusDistance .C 0 65536].all (fun i => !i.wf) = true := by decide +kernel

theorem test_wf_store :
    [({ defaultSettings with trims := [] } : Settings), { defaultSettings with trims := List.replicate 64 65536 },
      { defaultSettings with distances := [] }, { defaultSettings with distances := List.replicate 64 65536 },
      { defaultSettings with members := [] }, { defaultSettings with airTemp := -129 },
      { defaultSettings with airTemp := 128 }, { defaultSettings with programmeLevel := 65536 },
      { defaultSettings with masterLevel := 65536 }].all (fun v => !(Instr.storeWriteEnd ⟨v, 0⟩).wf) = true := by
  decide +kernel

theorem test_wf_edge : (Instr.refEdge 0).wf = false := by decide +kernel

/-- The ends of the ranges are well-formed. -/
theorem test_wf_accepts :
    [Instr.startSymbol .A 511, .roomSlotSet .C 255 255 65535 255 (List.replicate 81 ⟨255, 65535⟩), .setAirTemp .C (-128),
      .setAirTemp .C 127, .setMuteGroup .C 255 (List.replicate 248 255), .setBusTrim .C 255 65535,
      .refEdge 1].all Instr.wf = true := by decide +kernel

/-- A request's well-formedness is its command's. -/
theorem test_wf_requests :
    [Request.getSlot .room 256, .roomSlotSet 256 0 0 0 [], .roomSlotGain 0 65536 0, .cueCancel 256, .setAirTemp 128,
      .setMuteGroup 0 (List.replicate 249 0), .roomPush none (some 65536) 0].all (fun r => !r.wf) = true := by decide +kernel

/-! ### The worked cases of the arithmetic -/

/-- The published value of this check over the digits 1 to 9 (R4: generator, preset and bit order). -/
theorem test_crc : crc16 [0x31, 0x32, 0x33, 0x34, 0x35, 0x36, 0x37, 0x38, 0x39] = 0x29B1 := by decide +kernel

/-- Section 2.2, Worked measurements. -/
theorem test_interval : intervalOffset 131072 = 0 ∧ intervalOffset 130941 = 16785 := by decide +kernel

/-- Section 2.2: the straddled wrap, and the late capture with its two RATE_FAULTs. -/
theorem test_measure :
    ({ Link.reset 8 with history := [⟨0, 4294900000⟩] } : Link).measure 8 63776 = .accepted 0 ∧
      ({ Link.reset 8 with history := [⟨0, 0⟩] } : Link).measure 8 133072 = .fault ∧
      ({ Link.reset 8 with history := [⟨0, 2000⟩] } : Link).measure 8 131072 = .fault ∧
      ({ Link.reset 8 with history := [⟨1, 0⟩] } : Link).measure 8 131072 = .paused := by decide +kernel

/-- Section 2.10, Tracking after lock: targets, then applied offsets. -/
theorem test_tracking :
    [131, 130, 127, 128].map (targetOffset 16785) = [16809, 16801, 16777, 16785] ∧
      smooth 16785 16809 = 16791 ∧ smooth 16791 16801 = 16793 ∧ smooth 16793 16777 = 16789 ∧
      smooth 16789 16785 = 16788 ∧ smooth 16788 16785 = 16788 := by decide +kernel

/-- Section 3.7: a value between two frames, negative samples, overshoot and saturation. -/
theorem test_interpolate :
    interpolate 16384 0 1000 4000 0 = 1773 ∧ interpolate 49152 (-2000) (-1000) 500 3000 = 43 ∧
      interpolate 0 (-2000) (-1000) 500 3000 = -1000 ∧ interpolateRaw 32768 0 8000000 8388607 0 = 9218591 ∧
      interpolate 32768 0 8000000 8388607 0 = 8388607 := by decide +kernel

/-- Section 4.8, Failover and revert: the programme in blocks 102 to 105. -/
theorem test_blend : [1, 2, 3, 4].map (fun k => blend k 40000 40012) = [40003, 40006, 40009, 40012] := by decide +kernel

/-- Section 5.9: a ramp, and the retarget in its middle. -/
theorem test_ramp :
    (Ramp.step ⟨32768, 10000, 3, false⟩).current = 25179 ∧ (Ramp.step ⟨25179, 10000, 2, false⟩).current = 17590 ∧
      (Ramp.step ⟨17590, 10000, 1, false⟩).current = 10000 ∧ (Ramp.step ⟨25179, 32768, 4, false⟩).current = 27076 ∧
      (Ramp.step ⟨30870, 32768, 1, false⟩).current = 32768 := by decide +kernel

/-- Sections 6.8 and 9.8: bus 12. -/
theorem test_bus :
    gainProduct (gainProduct 32768 23170) 32768 = 23170 ∧ gainProduct 16384 32768 = 16384 ∧
      accumulate [⟨.programme 0, 12, 23170⟩, ⟨.aux 0, 12, 16384⟩] [1000000] [-400000] 12 = 16616400000 ∧
      busValue 16616400000 = 507092 ∧ finalRounded 507092 36781 32768 = 569194 ∧
      finalRounded 507092 36781 16384 = 284597 := by decide +kernel

/-- Section 10.7: the example request and answer. -/
theorem test_frames :
    requestFrame (.setBusTrim 12 36781) = [0xA5, 0x38, 0x03, 0x0C, 0x8F, 0xAD, 0x15] ∧
      checkFrame .C [0xA5, 0x38, 0x03, 0x0C, 0x8F, 0xAD, 0x15] = .pass (.setBusTrim 12 36781) ∧
      checkFrame .A [0xA5, 0x38, 0x03, 0x0C, 0x8F, 0xAD, 0x15] = .fail .notPermitted 0x38 ∧
      Response.frame ⟨.ok, 0x38, []⟩ = [0xC3, 0x00, 0x38, 0x00, 0x38] := by decide +kernel

/-- Section 9.8: the delays at 20 and at 30 degrees, and the first slew. -/
theorem test_delays :
    ((computeDelays 20 [{ Bus.reset with distance := 18000 }, { Bus.reset with distance := 6500 }]).map Bus.computed =
        [0, 1607]) ∧
      ((computeDelays 30 [{ Bus.reset with distance := 18000 }, { Bus.reset with distance := 6500 }]).map Bus.computed =
        [0, 1579]) ∧
      (Bus.slew { Bus.reset with computed := 1579, applied := 1607 }).applied = 1606 ∧
      (Bus.slew { Bus.reset with computed := 1579, applied := 1607 }).wait = 7 := by decide +kernel

/-- The cues of section 7.7. -/
def sectionCues : List Cue :=
  [⟨.C, 10, some 3, some 1210, some 0, .once, .programmeLevel 8192 16, false, 0, false⟩,
    ⟨.A, 7, none, none, some 0, .repeats, .notify, false, 0, false⟩,
    ⟨.B, 3, some 3, some 1211, none, .repeats, .muteGroup 2 true, false, 0, false⟩]

/-- Section 7.7 at e11: cue 10 fires and leaves, then cue 7 fires; the high-water mark moves on. -/
theorem test_cues_e11 :
    let t := ({ State.reset with cueing := ⟨none, some ⟨3, 2419980⟩, sectionCues, false, false⟩ } : State).closeSegment
      (some (⟨3, 2419980⟩, ⟨3, 2420011⟩))
    t.cueing.cues.map (fun c => (c.id, c.matched, c.fires)) = [(7, true, 1), (3, false, 0)] ∧
      t.cueing.hwm = some ⟨3, 2420012⟩ ∧ t.room.programme = ⟨32768, 8192, 16, true⟩ ∧
      t.portC.log.map (fun e => (e.id, e.kind, e.outcome)) = [(10, .programmeLevel, none)] ∧
      t.portA.isRaised .cueFired = true ∧ t.portB.isRaised .cueFired = false := by decide +kernel

/-- Section 7.7 at e74, with the flags of e73: cue 7, then cue 3. -/
theorem test_cues_e74 :
    let t := ({ State.reset with cueing := ⟨none, some ⟨3, 2421996⟩, sectionCues.drop 1, false, false⟩ } : State).closeSegment
      (some (⟨3, 2421996⟩, ⟨3, 2422027⟩))
    t.cueing.cues.map (fun c => (c.id, c.matched)) = [(7, true), (3, true)] ∧
      t.room.groups = [false, false, true, false] := by decide +kernel

/-- Section 5.9, The pool at its limit: the reasons of records two and four, and record one's acceptance. -/
theorem test_pool :
    let sc : Scene := ⟨List.replicate 63 ⟨.active, 0, Ramp.rest 32768, (List.range 8).map fun b => ⟨b, 0⟩⟩ ++
      List.replicate 65 Slot.reset, 8, []⟩
    sc.reject 96 (.slotSet 70 40 32768 0 ((List.range 8).map fun b => ⟨b, 0⟩)) = none ∧
      ({ sc with free := 0 } : Scene).reject 96 (.slotSet 71 41 32768 8 [⟨0, 0⟩, ⟨1, 0⟩]) = some .poolShort ∧
      sc.reject 96 (.slotGain 90 16384 0) = some .slotFree ∧
      ((({ sc with free := 0 } : Scene).act (.slotSet 5 5 20000 4 [⟨30, 0⟩, ⟨20, 0⟩, ⟨25, 0⟩])).slot 5) =
        ⟨.active, 5, ⟨32768, 20000, 4, true⟩, [⟨20, 0⟩, ⟨25, 0⟩, ⟨30, 0⟩]⟩ ∧
      (({ sc with free := 0 } : Scene).act (.slotSet 5 5 20000 4 [⟨30, 0⟩, ⟨20, 0⟩, ⟨25, 0⟩])).free = 5 := by
  decide +kernel

/-! ### Feed links, house samples and block ends -/

/-- R1, R5: a START in RUN begins a block with its capture. -/
theorem test_startSymbol : ((after (.startSymbol .B 7) running).linkB.phase) = .assemble 7 [] := by decide +kernel

/-- Section 1.11: block 40 takes link A to ACQUIRE with run count 1, 32 frames and its stamp. -/
theorem test_feedBlock_acquire :
    let t := after (.feedBlock .A (blockSymbols .A 40 [] 0 0)) (started .A 1000000 (Link.reset 112))
    t.linkA.state = .acquire ∧ t.linkA.run = 1 ∧ t.linkA.written = 32 ∧ t.linkA.seq = 40 ∧
      t.linkA.stamps.map Stamp.first = [0] ∧ t.linkA.gapDeadline = some 1049152 ∧ t.portB.raised = 1 := by
  decide +kernel

/-- Section 1.11: block 48, the ninth of its run with an interval of 131,072 ticks, locks at fill 128. -/
theorem test_feedBlock_lock :
    let t := after (.feedBlock .C (blockSymbols .C 48 [] 0 0)) (started .C 1131072
      { Link.reset 8 with state := .acquire, run := 8, seq := 47, written := 256, held := 256, history := [⟨40, 1000000⟩] })
    t.linkC.state = .locked ∧ t.linkC.readPos = some ⟨160, 0⟩ ∧ t.linkC.fill = 128 ∧
      t.linkC.gapDeadline = some 1180224 := by decide +kernel

/-- Section 1.11: after block 52 the gap timer expires at 1,245,760 and the holdover deadline is 2,032,192. -/
theorem test_gapTimerExpiry :
    let t := after (.gapTimerExpiry .A) ({ running with
      tick := 1245700, linkA := { lockedLink 112 with gapDeadline := some 1245760 } })
    t.linkA.state = .holdover ∧ t.linkA.holdDeadline = some 2032192 ∧ t.tick = 1245760 := by decide +kernel

/-- R17: the holdover timer's expiry takes the link to SEARCH and empties it. -/
theorem test_holdoverTimerExpiry :
    let t := after (.holdoverTimerExpiry .A) ({ running with
      tick := 2032192, linkA := { lockedLink 112 with state := .holdover, holdDeadline := some 2032192 } })
    t.linkA.state = .search ∧ t.linkA.stamps = [] ∧ t.linkA.readPos = none := by decide +kernel

/-- R169: a house sample advances the counter to the next multiple of 512. -/
theorem test_houseSample :
    (after .houseSample ({ running with tick := 100 })).tick = 512 ∧
      (after .houseSample ({ running with tick := 100 })).samplesDone = 1 := by decide +kernel

/-- Sections 6.8 and 9.8: a room slot's term on bus 12 with trim 36,781, sent and metered. -/
theorem test_houseSample_mix :
    let t := after .houseSample ({ running with
      mixing := true, mixTerms := [⟨.aux 0, 12, 16384⟩],
      buses := State.reset.buses.modify 12 (fun b => { b with inTrim := 36781, inMeff := 32768 }),
      linkC := { lockedLink 8 with
        ring := List.replicate 256 (List.replicate 8 1014184) } })
    t.outFrame.getD 12 0 = 569194 ∧ t.portC.peaks.getD 12 0 = 569194 ∧ t.outFrame.getD 11 0 = 0 := by decide +kernel

/-- R169: a block end counts one, 16,384 ticks after the last; R59: IDLE with link A fit enters its crossfade. -/
theorem test_blockEnd :
    let t := after (.blockEnd order) ({ running with linkA := lockedLink 112 })
    t.blockCount = 1 ∧ t.tick = 16384 ∧ t.sel.cur = .crossfade none .A 1 ∧ t.portA.isRaised .programme = true := by
  decide +kernel

/-- Section 4.8, A crossfade reversed: at e202 CROSSFADE(A, B, 2) with B unfit goes over to CROSSFADE(B, A, 2). -/
theorem test_blockEnd_reversal :
    (after (.blockEnd order) ({ running with
      linkA := lockedLink 112,
      sel := { Selector.reset with cur := .crossfade (some .A) .B 2, inForce := .crossfade (some .A) .B 2 } })).sel.cur =
      .crossfade (some .B) .A 2 := by decide +kernel

/-- R154, R77: a pop taken between the level step and the scene table's step restores from the stepped level and from the
room slot's gain as the ending block played it. -/
theorem test_blockEnd_between :
    let t := after (.blockEnd [.work .levels, .take .C, .work .scene])
      ({ running with
        room := ⟨⟨32768, 8192, 4, false⟩, Ramp.rest 32768, List.replicate 4 false,
          [⟨.C, 32768, 32768, 1000 :: List.replicate 7 0, List.replicate 4 false⟩]⟩,
        scene := { Scene.reset with roomSlots := ⟨true, 0, ⟨0, 600, 2, false⟩, [⟨1, 1⟩]⟩ :: List.replicate 7 RoomSlot.reset },
        portC := { Port.reset with waiting := some (.roomPop 8) } })
    t.room.programme = ⟨26624, 32768, 8, true⟩ ∧
      (t.scene.roomSlots.getD 0 RoomSlot.reset).ramp = ⟨0, 1000, 8, true⟩ := by decide +kernel

/-- R113, R126 with log 4: an entry of the programme link into SEARCH at the open block end leaves the next block without
a start index; without it the start index is the read index. -/
theorem test_close_start :
    let s := after (.blockEnd order) (pair 128)
    (after .houseSample s).cueing.start = some (.A, 160) ∧
      (after .houseSample (after (.feedBlock .A (blockSymbols .A 90 [] 0 0)) (after (.startSymbol .A 0) s))).cueing.start =
        none := by decide +kernel

/-- R112: a PLAY stamp that continues the last PLAY stamp by 32 enters unmarked, and any other enters marked. -/
theorem test_feedBlock_mark :
    let marks (before : ShowPos) := ((after (.feedBlock .A (blockSymbols .A 49 [] 0 0))
      (started .A 1000 { lockedLink 112 with contRef := some before })).linkA.stamps.map Stamp.mark)
    marks ⟨3, 2399968⟩ = [false, false] ∧ marks ⟨3, 2399969⟩ = [false, true] ∧ marks ⟨2, 2399968⟩ = [false, true] := by
  decide +kernel

/-- R114, R50 with log 4: a forward slip of the programme at the open block end falls in the block that begins, whose start
index stays at 160, so that the frames it skips up to 241 are passed in that block. -/
theorem test_close_slip :
    let s := { pair 128 with linkA := { lockedLink 112 with written := 337, applied := 5 } }
    let t := after (.feedBlock .A (blockSymbols .A 49 [] 0 0)) (after (.startSymbol .A 0) (after (.blockEnd order) s))
    let u := after .houseSample t
    t.linkA.readPos = some ⟨241, 0⟩ ∧ u.cueing.start = some (.A, 160) ∧
      (u.linkA.departing.map fun d => (d.total, d.given)) = some (32, 1) := by decide +kernel

/-! ### Port exchanges -/

/-- Section 10.7: the example request selection is accepted and waits. -/
theorem test_requestSelection :
    (after (.requestSelection .C [0xA5, 0x38, 0x03, 0x0C, 0x8F, 0xAD, 0x15]) running).portC.waiting =
      some (.setBusTrim 12 36781) := by decide +kernel

/-- R152: a wrong check byte is answered BAD_FRAME at once. -/
theorem test_requestSelection_bad :
    (after (.requestSelection .C [0xA5, 0x38, 0x03, 0x0C, 0x8F, 0xAD, 0x16]) running).portC.response =
      some ⟨.badFrame, 0x38, []⟩ := by decide +kernel

/-- Section 10.7: the answer's bytes, followed by filler, and its release. -/
theorem test_readSelection :
    let t := after (.readSelection .C 6) (running.onPort .C fun x => { x with response := some ⟨.ok, 0x38, []⟩ })
    t.portC.dataOut = [0xC3, 0x00, 0x38, 0x00, 0x38, 0xFF] ∧ t.portC.response = none := by decide +kernel

/-- Section 10.8: a read released after 2 bytes releases nothing. -/
theorem test_readSelection_part :
    (after (.readSelection .A 2) (running.onPort .A fun x => { x with response := some ⟨.ok, 0x28, []⟩ })).portA.response =
      some ⟨.ok, 0x28, []⟩ := by decide +kernel

/-! ### Requests taken at a block end -/

/-- A ready state whose link A is locked. -/
def readyLocked (p : PortId) (r : Request) : State := { ready p r with linkA := lockedLink 112 }

theorem test_linkRestart :
    (after (.linkRestart .C .A) (readyLocked .C (.linkRestart .A))).linkA.state = .search := by decide +kernel

/-- R157: server B may not restart link A. -/
theorem test_linkRestart_right :
    (after (.linkRestart .B .A) running).portB.response = some ⟨.notPermitted, 0x20, []⟩ := by decide +kernel

theorem test_linkDisable :
    (after (.linkDisable .C .A) (readyLocked .C (.linkDisable .A))).linkA.phase = .off := by decide +kernel

theorem test_linkEnable :
    (after (.linkEnable .C .B) ({ ready .C (.linkEnable .B) with
      linkB := { Link.reset 112 with state := .disabled, phase := .off } })).linkB.state = .search := by decide +kernel

/-- R66: in IDLE a handover is NOT_ACTIVE. -/
theorem test_handover_idle :
    (after (.handover .A) (ready .A .handover)).portA.response = some ⟨.notActive, 0x28, []⟩ := by decide +kernel

/-- Section 10.8: with A the programme and B fit and ALIGNED, server A's handover enters the crossfade. -/
theorem test_handover :
    (after (.handover .A) ({ ready .A .handover with
      linkB := lockedLink 112, sel := { Selector.reset with cur := .on .A, inForce := .on .A, align := .aligned } })).sel.cur
      = .crossfade (some .A) .B 1 := by decide +kernel

/-- R67: IDLE goes to a crossfade from NONE, and manual hold is set. -/
theorem test_forceProgramme :
    (after (.forceProgramme .C .A) (readyLocked .C (.forceProgramme .A))).sel.cur = .crossfade none .A 1 ∧
      (after (.forceProgramme .C .A) (readyLocked .C (.forceProgramme .A))).sel.manualHold = true := by decide +kernel

theorem test_setPrimary : (after (.setPrimary .C .B) (ready .C (.setPrimary .B))).sel.primary = .B := by decide +kernel

/-- R68, check 4: link C is no programme link. -/
theorem test_setPrimary_C :
    (after (.setPrimary .C .C) running).portC.response = some ⟨.badArgument, 0x2A, []⟩ := by decide +kernel

theorem test_setRevert : (after (.setRevert .C false) (ready .C (.setRevert false))).sel.autoRevert = false := by
  decide +kernel

/-- R94: a FREE room slot's state, track, ramp and empty list. -/
theorem test_getSlot :
    ((after (.getSlot .A .room 7) (ready .A (.getSlot .room 7))).portA.response.map Response.status) = some .ok := by
  decide +kernel

/-- R90: the list is sorted by bus and its weights are clamped. -/
theorem test_roomSlotSet :
    let r : Request := .roomSlotSet 2 1 32768 2 [⟨9, 40000⟩, ⟨3, 5⟩]
    let t := after (.roomSlotSet .C 2 1 32768 2 [⟨9, 40000⟩, ⟨3, 5⟩]) (ready .C r)
    t.scene.roomSlots.getD 2 RoomSlot.reset = ⟨true, 1, ⟨0, 32768, 2, true⟩, [⟨3, 5⟩, ⟨9, 32768⟩]⟩ := by decide +kernel

/-- R91: a FREE room slot is NOT_FOUND. -/
theorem test_roomSlotGain :
    (after (.roomSlotGain .C 0 5 0) (ready .C (.roomSlotGain 0 5 0))).portC.response = some ⟨.notFound, 0x34, []⟩ := by
  decide +kernel

theorem test_roomSlotClear :
    (after (.roomSlotClear .C 8) running).portC.response = some ⟨.badArgument, 0x35, []⟩ := by decide +kernel

/-- R107: 5 bytes for each of 16 buses, and the peaks read are cleared. -/
theorem test_getMeters :
    let t := after (.getMeters .B 3) ((ready .B (.getMeters 3)).onPort .B fun x => { x with peaks := List.replicate 64 258 })
    (t.portB.response.map fun r => r.payload.take 5) = some [0, 1, 2, 0, 0] ∧ t.portB.peaks.getD 48 9 = 0 ∧
      t.portB.peaks.getD 47 9 = 258 := by decide +kernel

theorem test_clearCounters :
    (after (.clearCounters .C) ({ ready .C .clearCounters with
      linkB := { Link.reset 112 with counters := { LinkCounters.zero with slips := 3 } } })).linkB.counters.slips = 0 := by
  decide +kernel

/-- R162: a section outside 0..2 is BAD_ARGUMENT. -/
theorem test_getCounters :
    (after (.getCounters .A 3) running).portA.response = some ⟨.badArgument, 0x02, []⟩ ∧
      ((after (.getCounters .A 0) (ready .A (.getCounters 0))).portA.response.map Response.status) = some .ok := by
  decide +kernel

theorem test_getStatus :
    ((after (.getStatus .A 0) (ready .A (.getStatus 0))).portA.response.map Response.status) = some .ok := by
  decide +kernel

theorem test_getPosition :
    ((after (.getPosition .B) (ready .B .getPosition)).portB.response.map Response.code) = some 0x04 := by decide +kernel

/-- R121: levels above unity are stored as 32,768. -/
theorem test_cueAdd :
    let c : CueSpec := ⟨9, some 3, none, none, .once, .programmeLevel 40000 1⟩
    (after (.cueAdd .A c) (ready .A (.cueAdd c))).cueing.cues =
      [⟨.A, 9, some 3, none, none, .once, .programmeLevel 32768 1, false, 0, true⟩] := by decide +kernel

/-- R121: a cue without a match field is BAD_ARGUMENT. -/
theorem test_cueAdd_bad :
    (after (.cueAdd .A ⟨9, none, none, none, .once, .notify⟩) running).portA.response =
      some ⟨.badArgument, 0x10, []⟩ := by decide +kernel

/-- R122: another port's cue with the same id is not found. -/
theorem test_cueCancel :
    (after (.cueCancel .B 7) ({ ready .B (.cueCancel 7) with
      cueing := ⟨none, none, sectionCues, false, false⟩ })).portB.response = some ⟨.notFound, 0x11, []⟩ := by decide +kernel

theorem test_cueLog :
    (after (.cueLog .A) ((ready .A .cueLog).onPort .A fun x =>
      { x with log := [⟨7, .repeats, .notify, 11, none⟩] })).portA.log = [] := by decide +kernel

theorem test_cueList :
    (after (.cueList .A 48) running).portA.response = some ⟨.badArgument, 0x12, []⟩ := by decide +kernel

theorem test_setProgrammeLevel :
    (after (.setProgrammeLevel .C 8192 4) (ready .C (.setProgrammeLevel 8192 4))).room.programme =
      ⟨32768, 8192, 4, true⟩ := by decide +kernel

theorem test_setMasterLevel :
    (after (.setMasterLevel .C 40000 0) (ready .C (.setMasterLevel 40000 0))).room.master =
      ⟨32768, 32768, 0, true⟩ := by decide +kernel

theorem test_muteGroup :
    (after (.muteGroup .C 1 true) (ready .C (.muteGroup 1 true))).room.groups = [false, true, false, false] := by
  decide +kernel

/-- Section 8.6 at e100: the push, its saved entry and its answer of depth 1. -/
theorem test_roomPush :
    let t := after (.roomPush .A (some 8192) none 4) (ready .A (.roomPush (some 8192) none 4))
    t.room.programme = ⟨32768, 8192, 4, true⟩ ∧ t.portA.response = some ⟨.ok, 0x18, [1]⟩ ∧
      t.room.stack = [⟨.A, 32768, 32768, List.replicate 8 0, List.replicate 4 false⟩] := by decide +kernel

/-- Section 8.6 at e102, the step taken first: the pop restores level, room slot and group. -/
theorem test_roomPop :
    let s : State := { ready .A (.roomPop 4) with
      room := ⟨⟨20480, 8192, 2, false⟩, Ramp.rest 32768, [false, true, false, false],
        [⟨.A, 32768, 32768, List.replicate 8 0, List.replicate 4 false⟩]⟩ }
    let t := after (.roomPop .A 4) s
    t.room = ⟨⟨20480, 32768, 4, true⟩, Ramp.rest 32768, List.replicate 4 false, []⟩ ∧
      t.portA.response = some ⟨.ok, 0x19, [0]⟩ := by decide +kernel

theorem test_setBusTrim :
    ((after (.setBusTrim .C 12 36781) (ready .C (.setBusTrim 12 36781))).buses.getD 12 Bus.reset).trim = 36781 := by
  decide +kernel

/-- R143: a bus named more than once is taken once. -/
theorem test_setMuteGroup :
    (after (.setMuteGroup .C 3 [0, 63, 0]) (ready .C (.setMuteGroup 3 [0, 63, 0]))).members =
      [0, 0, 0, 0x8000000000000001] := by decide +kernel

/-- R146: the temperature is clamped. -/
theorem test_setAirTemp : (after (.setAirTemp .C (-30)) (ready .C (.setAirTemp (-30)))).airTemp = -10 := by
  decide +kernel

/-- R146: the distance is clamped. -/
theorem test_setBusDistance :
    ((after (.setBusDistance .C 5 60001) (ready .C (.setBusDistance 5 60001))).buses.getD 5 Bus.reset).distance =
      60000 := by decide +kernel

/-- R160, R167: SLIP and CLIP are bits 3 and 9 of the two bytes. -/
theorem test_getNotices :
    let t := after (.getNotices .C) ((ready .C .getNotices).onPort .C fun x => (x.raise .slip).raise .clip)
    t.portC.response = some ⟨.ok, 0x06, [0x02, 0x08]⟩ ∧ t.portC.raised = 0 := by decide +kernel

/-- R160: bits above 11 are ignored. -/
theorem test_setNoticeMask :
    (after (.setNoticeMask .C 0xF200) (ready .C (.setNoticeMask 0xF200))).portC.mask = 0x200 := by decide +kernel

theorem test_setNoticeEnable :
    (after (.setNoticeEnable .C true) (ready .C (.setNoticeEnable true))).portC.enable = true := by decide +kernel

/-! ### Store, reset and reference -/

/-- Section 11.6 at e5,001: WRITING and INVALID. -/
theorem test_storeSettings :
    let t := after (.storeSettings .C) (ready .C .storeSettings)
    t.store.valid = false ∧ t.store.writing = some defaultSettings := by decide +kernel

/-- R171: a read-back that agrees ends the write as DONE. -/
theorem test_storeWriteEnd :
    let t := after (.storeWriteEnd (recordOf defaultSettings)) ({ running with
      store := ⟨.torn, false, some defaultSettings, .untried⟩ })
    t.store.result = .done ∧ t.store.valid = true ∧ t.portC.isRaised .storeDone = true := by decide +kernel

/-- R171: one that does not agree ends it as FAILED. -/
theorem test_storeWriteEnd_failed :
    (after (.storeWriteEnd ⟨defaultSettings, 0⟩) ({ running with
      store := ⟨.torn, false, some defaultSettings, .untried⟩ })).store.result = .failed := by decide +kernel

/-- Section 11.6 at e5,020: the write is aborted and the part is in RESET. -/
theorem test_restart :
    let t := after (.restart .C) ({ ready .C .restart with store := ⟨.torn, false, some defaultSettings, .untried⟩ })
    t.startup = .reset ∧ t.resetKind = .command ∧ t.store.writing = none := by decide +kernel

/-- Section 11.6: the cause COMMAND with the flag set. -/
theorem test_getResetCause :
    (after (.getResetCause .C) ({ ready .C .getResetCause with cause := ⟨some .command, true⟩ })).portC.response =
      some ⟨.ok, 0x09, [3, 1]⟩ := by decide +kernel

theorem test_ackResetCause :
    (after (.ackResetCause .C) ({ ready .C .ackResetCause with cause := ⟨some .command, true⟩ })).cause =
      ⟨none, false⟩ := by decide +kernel

theorem test_powerOn : (after .powerOn running).startup = .reset ∧ (after .powerOn running).resetKind = .powerOn := by
  decide +kernel

theorem test_resetPin : (after .resetPin running).startup = .reset ∧ (after .resetPin running).resetKind = .pin := by
  decide +kernel

/-- R175: the end of RESET records the cause. -/
theorem test_resetEnd :
    (after .resetEnd State.reset).startup = .loading ∧ (after .resetEnd State.reset).cause = ⟨some .powerOn, false⟩ := by
  decide +kernel

/-- R173, R175: a load of a memory never written gives the defaults and SETTINGS_LOST. -/
theorem test_loadEnd :
    let t := after .loadEnd ({ State.reset with startup := .loading, tick := 40960, blockCount := 2, samplesDone := 16 })
    t.startup = .run ∧ t.cause.lost = true ∧ t.airTemp = 20 := by decide +kernel

/-- R173: a VALID record takes effect. -/
theorem test_loadEnd_valid :
    let t := after .loadEnd ({ State.reset with
      startup := .loading, tick := 40960, blockCount := 2, samplesDone := 16,
      store := { CalStore.reset with memory := .record (recordOf { defaultSettings with airTemp := 30 }) } })
    t.cause.lost = false ∧ t.airTemp = 30 ∧ t.store.valid = true := by decide +kernel

/-- R168: the first edge takes ABSENT to ACQUIRING, with HOUSE_REF. -/
theorem test_refEdge :
    (after (.refEdge 512) running).ref.state = .acquiring ∧
      (after (.refEdge 512) running).portB.isRaised .houseRef = true := by decide +kernel

/-- Section 11.7: the fourth missing period takes REF_LOCKED to REF_HOLD. -/
theorem test_refMissingPeriod :
    (after .refMissingPeriod ({ running with
      ref := { Reference.reset with state := .locked, bad := 3, everLocked := true } })).ref.state = .hold := by
  decide +kernel

theorem test_pullInEnd :
    (after .pullInEnd ({ running with ref := { Reference.reset with state := .locked, pullIn := true } })).ref.pullIn =
      false := by decide +kernel

/-- R172: a power loss leaves the nonvolatile memory. -/
theorem test_powerLoss :
    let t := after .powerLoss ({ running with store := ⟨.record (recordOf defaultSettings), true, none, .done⟩ })
    t.startup = .off ∧ t.store.memory = .record (recordOf defaultSettings) ∧ t.store.valid = false := by decide +kernel

/-- No word spells a command. -/
theorem test_decode : decodeTableWord 16 0 = none := by decide +kernel

/-! ### Witnesses: the hypotheses of each statement are met -/

theorem witness_StepTakesFrontCommand : ({ running with pending := [.powerLoss, .powerOn] } : State).pending =
    .powerLoss :: [.powerOn] := rfl

/-- A tick passes at 510 and none at 511, on a part that stands without a command, with its block end closed or open. -/
theorem witness_IdleStepPassesATick :
    ({ running with tick := 510 } : State).pending = [] ∧ ({ running with tick := 511 } : State).blockEndOpen = false ∧
      atOpenEnd.pending = [] ∧ atOpenEnd.blockEndOpen = true := ⟨rfl, rfl, rfl, rfl⟩

/-- A programme level in the middle of a ramp, at a block end. -/
def ramping : State :=
  { running with pending := [.blockEnd order], room := { Room.reset with programme := ⟨32768, 8192, 16, false⟩ } }

theorem witness_RampLawKept : RampLaw ramping ∧ ∃ t, step ramping = .next t :=
  ⟨by unfold RampLaw Ramp.Lawful; decide +kernel, _, rfl⟩

/-- A full overlay stack and one more push. -/
def stacked : State :=
  { ready .A (.roomPush none none 0) with
    pending := [.roomPush .A none none 0], room := { Room.reset with stack := List.replicate 8 ⟨.A, 0, 0, [], []⟩ } }

theorem witness_OverlayLawKept : OverlayLaw stacked ∧ ∃ t, step stacked = .next t :=
  ⟨by unfold OverlayLaw; decide +kernel, _, rfl⟩

/-- One ACTIVE slot with a full list, and a record in a queue. -/
def peopled : State :=
  { running with
    pending := [.blockEnd order],
    scene := { Scene.reset with
      slots := Scene.reset.slots.set 3 ⟨.active, 1, Ramp.rest 5, (List.range 8).map fun b => ⟨b, 1⟩⟩, free := 504 },
    linkA := { Link.reset 112 with queue := [⟨0, .slotMove 3 [⟨63, 2⟩]⟩] } }

theorem witness_SceneLawKept : SceneLaw peopled ∧ ∃ t, step peopled = .next t := by
  refine ⟨⟨by decide +kernel, by decide +kernel, ?_, ⟨by decide +kernel, ?_⟩, ⟨by decide +kernel, ?_⟩⟩, _, rfl⟩
  · unfold Slot.Lawful ListLaw; decide +kernel
  · intro r hr; rw [List.mem_singleton.mp hr]; exact ⟨by decide, by decide⟩
  · intro r hr; cases hr

/-- Three cues, and a block end. -/
def cued : State := { running with pending := [.blockEnd order], cueing := ⟨none, none, sectionCues, false, false⟩ }

theorem witness_CueLawKept : CueLaw cued ∧ ∃ t, step cued = .next t :=
  ⟨by unfold CueLaw; decide +kernel, _, rfl⟩

/-- A waiting request and its command. -/
def asked : State := { ready .B .cueLog with pending := [.cueLog .B] }

theorem witness_EngineLawKept : EngineLaw asked ∧ ∃ t, step asked = .next t :=
  ⟨by unfold EngineLaw Port.Lawful; decide +kernel, _, rfl⟩

/-- The instant of a block end, with its command. -/
def ending : State := { running with pending := [.blockEnd order], tick := 32768, blockCount := 1, samplesDone := 32 }

theorem witness_TimeLawKept : TimeLaw ending ∧ ∃ t, step ending = .next t :=
  ⟨by unfold TimeLaw; decide +kernel, _, rfl⟩

/-- Links at the two ends of the fill's range and of the step's range. -/
def tracking : State :=
  { running with
    pending := [.houseSample],
    linkA := { lockedLink 112 with written := 161, applied := 167772, taken := -167772 },
    linkB := { lockedLink 112 with written := 400, target := 167772 } }

theorem witness_TrackLawKept : TrackLaw tracking ∧ ∃ t, step tracking = .next t := by
  refine ⟨⟨⟨?_, ?_, ?_, ?_, ?_⟩, ⟨?_, ?_, ?_, ?_, ?_⟩, ⟨?_, ?_, ?_, ?_, ?_⟩⟩, _, rfl⟩ <;>
    first
    | decide +kernel
    | (unfold InStepRange; decide +kernel)

/-- Delays at both ends of their range. -/
def delayed : State :=
  { running with
    pending := [.blockEnd order], buses := [{ Bus.reset with computed := 2047, wait := 7 }, { Bus.reset with applied := 2047 }] }

theorem witness_DelayLawKept : DelayLaw delayed ∧ ∃ t, step delayed = .next t :=
  ⟨by unfold DelayLaw; decide +kernel, _, rfl⟩

/-- Samples, clips and peaks at the ends of their ranges. -/
def loud : State :=
  { running with
    pending := [.houseSample], outFrame := [-8388608, 8388607],
    buses := [{ Bus.reset with line := [8388607, -8388608], clips := 65535 }],
    portA := { Port.reset with peaks := [8388608] } }

theorem witness_OutputLawKept : OutputLaw loud ∧ ∃ t, step loud = .next t := by
  refine ⟨⟨?_, ?_, ?_⟩, _, rfl⟩
  · unfold IsSample; decide +kernel
  · unfold IsSample; decide +kernel
  · intro q; cases q <;> decide +kernel

/-- Weights 0 and 32 on values of both signs. -/
theorem witness_FadeArithmetic : 0 ≤ 32 ∧ 32 ≤ 32 ∧ (0 : Int) ≤ 8388607 ∧ (-8388608 : Int) ≤ 0 := by decide

/-- A house sample after an open block end and one in the middle of a block, without due requests; the largest gains. -/
theorem witness_EffectiveGains :
    (∀ p, (running.port p).due = false) ∧ (∃ t, exec .houseSample running = .next t) ∧
      (∀ p, (({ running with blockEndOpen := true } : State).port p).due = false) ∧
      (∃ t, exec .houseSample { running with blockEndOpen := true } = .next t) ∧ 65535 ≤ 65535 ∧ 32768 ≤ 32768 :=
  ⟨fun p => by cases p <;> rfl, ⟨_, rfl⟩, fun p => by cases p <;> rfl, ⟨_, rfl⟩, by decide, by decide⟩

/-- A ramp that falls and one at rest. -/
theorem witness_RampReachesTarget : (⟨32768, 10000, 3, false⟩ : Ramp).Lawful ∧ (Ramp.rest 7).Lawful :=
  ⟨nofun, fun _ => rfl⟩

/-- A bus at each end of the waiting and of the delays, eight slews, and an open block end without due requests. -/
theorem witness_SlewMovesOnceInEight :
    let b : Bus := { Bus.reset with wait := 7, applied := 2047, computed := 0 }
    b.wait ≤ 7 ∧ b.applied ≤ 2047 ∧ b.computed ≤ 2047 ∧ [0, 2047, 0, 1, 2, 3, 4, 5].length ≤ 8 ∧
      (∀ d ∈ [0, 2047, 0, 1, 2, 3, 4, 5], d ≤ 2047) ∧ atOpenEnd.startup = .run ∧ atOpenEnd.blockEndOpen = true ∧
      ∀ p, (atOpenEnd.port p).due = false :=
  ⟨by decide, by decide, by decide, by decide, by decide, rfl, rfl, fun p => by cases p <;> rfl⟩

theorem witness_RequestFramesReadBack : (Request.roomSlotSet 7 7 65535 255 [⟨63, 65535⟩]).wf = true ∧
    (Request.setMuteGroup 255 (List.replicate 248 255)).wf = true := by decide +kernel

/-- The phases a START can find, in RUN; LOADING; and an open block end, which a tick closes and no tick leaves open. -/
theorem witness_StartSymbolBeginsABlock :
    running.startup = .run ∧ running.blockEndOpen = false ∧ (running.link .A).phase = .hunt ∧
      ((started .A 5 (Link.reset 112)).link .A).phase = .assemble 5 [] ∧
      ((started .A 5 { Link.reset 112 with state := .acquire }).link .A).state = .acquire ∧
      ((running.setLink .A { Link.reset 112 with phase := .off }).link .A).phase = .off ∧
      ({ State.reset with startup := .loading } : State).startup ≠ .run ∧
      atOpenEnd.startup = .run ∧ atOpenEnd.ticking = true ∧ atOpenEnd.samplesDone < 32 ∧
      atOpenEnd.tick.toNat % 512 < 511 := by decide +kernel

/-- The valid block that a reading comes to. -/
def validBlock : Parsed FeedBlock × List Byte → Option (FeedBlock × List Byte)
  | (.ok b, bytes) => some (b, bytes)
  | _ => none

/-- A reading that comes to a valid block. -/
theorem eq_of_validBlock {x : Parsed FeedBlock × List Byte} {y : FeedBlock × List Byte} (h : validBlock x = some y) :
    x = (.ok y.1, y.2) := by
  match x with
  | (.ok _, _) => cases h; rfl
  | (.more, _) => cases h
  | (.bad, _) => cases h

/-- The block of the tests is read from its symbols. -/
theorem assemble_block_A : assemble .A [] (blockSymbols .A 49 [] 0 0) = (.ok (block .A 49), blockBytes .A 49 [] 0 0) :=
  eq_of_validBlock (y := (block .A 49, blockBytes .A 49 [] 0 0)) (by decide +kernel)

/-- The same with one SCENE_RELEASE record. -/
theorem assemble_block_record : assemble .A [] (blockSymbols .A 49 [5, 1, 0] 1 0) =
    (.ok { block .A 49 with header := ⟨49, .play, ⟨3, 2400000⟩, 1, 1⟩, records := [.sceneRelease 0] },
      blockBytes .A 49 [5, 1, 0] 1 0) :=
  eq_of_validBlock (y := ({ block .A 49 with header := ⟨49, .play, ⟨3, 2400000⟩, 1, 1⟩, records := [.sceneRelease 0] },
    blockBytes .A 49 [5, 1, 0] 1 0)) (by decide +kernel)

/-- The same on link C. -/
theorem assemble_block_C : assemble .C [] (blockSymbols .C 49 [] 0 0) = (.ok (block .C 49), blockBytes .C 49 [] 0 0) :=
  eq_of_validBlock (y := (block .C 49, blockBytes .C 49 [] 0 0)) (by decide +kernel)

/-- A first block on link A, which has a queue, and on link C, which has none; and a block on a link in ACQUIRE: in step
and out of step, at run counts 7 and 8, without an entry eight back, and with one at the ends of the interval's range. -/
theorem witness_FeedBlockBeginsARun :
    (started .A 1 (Link.reset 112)).startup = .run ∧
      ((started .A 1 (Link.reset 112)).link .A).phase = .assemble 1 [] ∧
      ((started .A 1 (Link.reset 112)).link .A).state = .search ∧
      ((started .C 1 (Link.reset 8)).link .C).phase = .assemble 1 [] ∧
      ((started .C 1 (Link.reset 8)).link .C).state = .search ∧
      (∃ b bytes, assemble .A [] (blockSymbols .A 49 [] 0 0) = (.ok b, bytes) ∧ b.header.seq = 49) ∧
      (∃ b bytes, assemble .C [] (blockSymbols .C 49 [] 0 0) = (.ok b, bytes)) ∧
      [(48, 7, 129761), (48, 8, 132383), (48, 8, 129760), (48, 8, 132384), (47, 8, 131072)].all (fun v =>
        let x := (started .A (BitVec.ofNat 32 v.2.2) { Link.reset 112 with
          state := .acquire, seq := BitVec.ofNat 8 v.1, run := v.2.1, history := [⟨41, 0⟩] }).link .A
        decide (x.state = .acquire) && decide (x.phase = .assemble (BitVec.ofNat 32 v.2.2) [])) = true ∧
      ((started .A 1 { Link.reset 112 with state := .acquire, seq := 48 }).link .A).state = .acquire :=
  ⟨rfl, rfl, rfl, rfl, rfl, ⟨_, _, assemble_block_A, rfl⟩, ⟨_, _, assemble_block_C⟩, by decide +kernel, rfl⟩

/-- An unfinished block, and one broken by an undecodable symbol; records that a block can carry, of every kind and at
the ends of their ranges; audio of the least and of the greatest track count; and the tests of the layout at the ends
of their ranges: they pass for the block of these tests, whose reading stands when bytes follow, and a list of 9
fails. -/
theorem witness_FeedBlockMalformedOrUnfinished :
    State.reset.startup ≠ .run ∧ running.startup = .run ∧ assemble .A [] [.data 0xE7] = (.more, [0xE7]) ∧
      assemble .A [] [.data 0xE7, .undecodable] = (.bad, [0xE7]) ∧ assemble .A [] [.data 0xE8] = (.bad, [0xE8]) ∧
      (∀ r ∈ [MetaRecord.slotSet 255 255 65535 255 (List.replicate 8 ⟨255, 65535⟩), .slotGain 255 65535 255,
        .slotMove 255 [⟨0, 0⟩], .slotRelease 255 255, .sceneRelease 255], Carried r ∧ r.Lawful) ∧
      Carried (.slotMove 0 (List.replicate 9 ⟨0, 0⟩)) ∧ ¬ (MetaRecord.slotMove 0 (List.replicate 9 ⟨0, 0⟩)).Lawful ∧
      (List.replicate 96 (0 : Byte)).length = 96 * (1 : Byte).toNat ∧
      (List.replicate 10752 (0 : Byte)).length = 96 * (112 : Byte).toNat ∧
      (match parseBlock .A (blockBytes .A 49 [] 0 0) with | .ok _ => true | _ => false) = true ∧ (0xE8 : Byte) ≠ 0xE7 ∧ (6 : Byte).toNat > 5 ∧
      (255 : Byte).toNat ≠ 6 + 3 * (1 : Byte).toNat ∧ (255 : Byte).toNat ≠ 2 + 3 * (1 : Byte).toNat := by
  refine ⟨by decide, rfl, rfl, rfl, rfl, ?_, ?_, ?_, by decide +kernel, by decide +kernel, by decide +kernel, by decide, by decide,
    by decide, by decide⟩ <;> simp [Carried, CarriedList, MetaRecord.Lawful]

/-- A LOCKED or HOLDOVER link in step, with the written count that leaves the fill at 47, 48, 208 or 209, with a history
that gives an accepted interval or a rate fault, and with each freshness; and a full queue that meets a record. -/
theorem witness_FeedBlockInStepWhenLocked :
    [175, 176, 336, 337].all (fun n =>
      let x := (started .A 1000 { lockedLink 112 with written := n }).link .A
      decide (x.state = .locked) && decide (x.readPos = some ⟨160, 0⟩) && decide ((49 : Seq) = x.seq + 1) &&
        decide (x.phase = .assemble 1000 [])) = true ∧
      [129761, 132383, 129760, 132384].all (fun capture =>
        let x := (started .A capture { lockedLink 112 with state := .holdover, history := [⟨41, 0⟩] }).link .A
        decide (x.state = .holdover) && decide (x.phase = .assemble capture [])) = true ∧
      [Fresh.no, .lock, .slip 100].all (fun fresh =>
        let x := (started .A 1000 { lockedLink 112 with
          written := 337, fresh := fresh, fadeIn := true, queue := List.replicate 64 ⟨160, .sceneRelease 0⟩ }).link .A
        decide (x.fresh = fresh) && decide (x.readPos = some ⟨160, 0⟩) && decide (x.queue.length = 64) &&
          decide (x.phase = .assemble 1000 [])) = true ∧
      (∃ b bytes, assemble .A [] (blockSymbols .A 49 [5, 1, 0] 1 0) = (.ok b, bytes) ∧ b.records = [.sceneRelease 0]) ∧
      ∃ b bytes, assemble .A [] (blockSymbols .A 49 [] 0 0) = (.ok b, bytes) ∧ b.header.seq = 49 :=
  ⟨by decide +kernel, by decide +kernel, by decide +kernel, ⟨_, _, assemble_block_record, rfl⟩, _, _, assemble_block_A,
    rfl⟩

/-- Steps of 2, 3 and 4 on a LOCKED and on a HOLDOVER link, which has its 256 ring places, a read position and a stamp;
a block has 32 frames. -/
theorem witness_FeedBlockAcrossAGap :
    [((47 : Seq), LinkState.locked), (46, .holdover), (45, .locked)].all (fun q =>
      let x := (started .A 1000 { lockedLink 112 with seq := q.1, state := q.2 }).link .A
      decide (x.state = q.2) && decide (x.phase = .assemble 1000 []) && decide ((49 : Seq) ≠ x.seq + 1) &&
        x.readPos.isSome && x.stamps.getLast?.isSome && decide (x.ring.length = 256)) = true ∧
      (block .A 49).frames.length = 32 ∧
      ∃ b bytes, assemble .A [] (blockSymbols .A 49 [] 0 0) = (.ok b, bytes) ∧ b.header.seq = 49 :=
  ⟨by decide +kernel, by decide +kernel, _, _, assemble_block_A, rfl⟩

/-- The commands of a feed link at a closed block end, and those that let no time pass at an open one. -/
theorem witness_FeedCommandsFrame :
    (∃ t, exec (.startSymbol .A 5) running = .next t) ∧ running.blockEndOpen = false ∧
      (∃ t, exec (.startSymbol .A 0) atOpenEnd = .next t) ∧ (∃ t, exec (.feedBlock .A []) atOpenEnd = .next t) ∧
      (∃ t, exec (.gapTimerExpiry .A) atOpenEnd = .next t) ∧ (atOpenEnd.link .A).gapDeadline = some atOpenEnd.tick ∧
      (∃ t, exec (.holdoverTimerExpiry .B) atOpenEnd = .next t) ∧
      (atOpenEnd.link .B).holdDeadline = some atOpenEnd.tick :=
  ⟨⟨_, rfl⟩, rfl, ⟨_, rfl⟩, ⟨_, rfl⟩, ⟨_, rfl⟩, by decide +kernel, ⟨_, rfl⟩, by decide +kernel⟩

/-- The first and the last house sample of a block; a ring of 256 frames of a link's width; and programme values of 112
tracks, the first and the last of which are named. -/
theorem witness_HouseSampleMixes :
    [0, 31].all (fun n =>
      let s : State := { running with mixing := true, samplesDone := n }
      decide (s.startup = .run) && !s.blockEndOpen && s.mixing && decide (s.samplesDone < 32)) = true ∧
      (lockedLink 8).ring.length = 256 ∧ (∀ frame ∈ (lockedLink 8).ring, frame.length = 8) ∧ 0 < 112 ∧ 111 < 112 ∧
      (List.replicate 112 (5 : Int)).length = 112 := by
  refine ⟨by decide +kernel, by decide +kernel, ?_, by decide, by decide, by decide⟩
  intro f hf
  rw [List.eq_of_mem_replicate (a := List.replicate 8 (0 : Int)) (n := 256) hf]
  rfl

/-- LOADING, RESET, RUN before the first block end and after the 32nd sample. -/
theorem witness_HouseSampleOutsideRunAndFrame :
    State.reset.blockEndOpen = false ∧ State.reset.startup ≠ .run ∧
      ({ State.reset with startup := .loading, samplesDone := 31 } : State).startup ≠ .run ∧ running.startup = .run ∧
      running.mixing = false ∧ running.samplesDone < 32 ∧ ending.blockEndOpen = false ∧
      32 ≤ ending.samplesDone ∧ ∃ t, exec .houseSample ending = .next t :=
  ⟨rfl, by decide, by decide, rfl, rfl, by decide, rfl, by decide, _, rfl⟩

/-- A block end at its instant and one ahead of it, in RUN and in LOADING, without and with takes that find no request;
an open one without due requests in RUN and in LOADING, and one with a due request. -/
theorem witness_BlockEndCounts :
    ending.ticking = true ∧ ending.blockEndOpen = false ∧ running.ticking = true ∧
      ({ State.reset with startup := .loading } : State).ticking = true ∧ NoTakes order running ∧
      NoTakes [.take .A, .work .show, .take .C] running ∧ atOpenEnd.startup = .run ∧ atOpenEnd.blockEndOpen = true ∧
      (∀ p, (atOpenEnd.port p).due = false) ∧ ({ atOpenEnd with startup := .loading } : State).startup ≠ .run ∧
      ({ atOpenEnd with startup := .loading } : State).tick.toNat ≤ 57344 ∧
      Takable .B .cueLog (dueAt .B .cueLog) ∧ (dueAt .B .cueLog).blockEndOpen = true ∧
      ((dueAt .B .cueLog).port .B).due = true ∧ (∀ q, q ≠ .B → ((dueAt .B .cueLog).port q).due = false) ∧
      TakableLoading .B .getResetCause (loadingAt .B .getResetCause) ∧
      ∃ t, exec (commandOf .B .cueLog) (dueAt .B .cueLog) = .next t := by
  refine ⟨by decide +kernel, rfl, by decide +kernel, by decide +kernel, nofun, ?_, rfl, rfl, ?_, by decide, by decide,
    ⟨rfl, rfl, Or.inr ⟨rfl, rfl⟩⟩, rfl, rfl, ?_, loadingAt_takable _ _, _, rfl⟩
  · intro p _; cases p <;> rfl
  · intro p; cases p <;> rfl
  · intro q hq; cases q
    · rfl
    · exact absurd rfl hq
    · rfl

/-- A level in the middle of a ramp, without requests; and with SET_PROGRAMME_LEVEL taken before or after the step. -/
theorem witness_BlockEndStepsRamps :
    ramping.startup = .run ∧ ramping.blockEndOpen = false ∧ NoTakes order ramping ∧ ramping.cueing.cues = [] ∧
      ramping.sel.inForce = .idle ∧
      (let s := ramping.onPort .C fun x => { x with waiting := some (.setProgrammeLevel 40000 3) }
      s.startup = .run ∧ s.blockEndOpen = false ∧ s.cueing.cues = [] ∧ s.sel.inForce = .idle ∧
      BlockEvent.take .C ∉ [BlockEvent.work .levels] ∧ (s.port .C).waiting = some (.setProgrammeLevel 40000 3) ∧
      ∀ q, q ≠ .C → (s.port q).waiting = none) ∧
      (∀ w, w ∈ allWorks) ∧ ∃ t, exec (.blockEnd (allWorks.map .work)) ramping = .next t := by
  refine ⟨rfl, rfl, nofun, rfl, rfl, ⟨rfl, rfl, rfl, rfl, by decide, rfl, ?_⟩, fun w => by cases w <;> decide, _, rfl⟩
  intro q hq; cases q
  · rfl
  · rfl
  · exact absurd rfl hq

/-- IDLE with each link fit; ON and crossfades at steps 1, 3 and 4, and one that was entered here; a programme and a fit
standby whose read positions and stamps meet at the ends of the range that an offer may lie in; and a running link that
is not the closing programme and has a read position. -/
theorem witness_BlockEndSelects :
    running.sel.cur = .idle ∧ running.blockEndOpen = false ∧ NoTakes order running ∧
      ({ running with linkA := lockedLink 112 } : State).fit .A = true ∧
      ({ running with linkB := lockedLink 112 } : State).fit .A = false ∧
      ({ running with linkB := lockedLink 112 } : State).fit .B = true ∧
      [(1, false), (3, false), (4, false), (1, true)].all (fun k => decide (({ running with
        sel := { Selector.reset with cur := .crossfade (some .A) .B k.1, setHere := k.2 } } : State).sel.setHere = k.2)) =
        true ∧
      (pair 128).sel.cur = .on .A ∧ (pair 128).opening = some .A ∧ (pair 128).fit .B = true ∧
      [47, 48, 208, 209].all (fun age =>
        let s := pair age
        let z := s.link .B
        decide (z.readPos = some ⟨160, 0⟩) && decide ((s.link .A).readPos = some ⟨160, 0⟩) &&
          decide (((s.link .A).stamps.find? fun σ => decide (((160 : FrameIndex) - σ.first).toNat < 32)) =
            some ⟨160, ⟨3, 2400128⟩, .play, 2, false⟩) &&
          decide (z.stamps = [] ++ ⟨160, ⟨3, 2400128⟩, .play, 2, false⟩ :: []) &&
          decide ((z.written - 160).toNat = age) && decide (age ≤ z.held)) = true ∧
      ((pair 128).link .B).running = true ∧ (pair 128).closing ≠ some .B ∧ (pair 128).opening ≠ some .B := by
  refine ⟨rfl, rfl, nofun, ?_⟩
  decide +kernel

/-- A waiting request, a failing frame, a passing one; LOADING with a request that waits and one that does not; and a
command presented with a request of its own that may be taken, with another waiting, and with none, without a tick, in
the middle of a block and at a block end. -/
theorem witness_RequestSelectionRuns :
    TakableLoading .A (.getStatus 7) (loadingAt .A (.getStatus 7)) ∧
    (0xA5 : Byte) ≠ 0x5A ∧ checkFrame .C (requestFrame .clearCounters) = .pass .clearCounters ∧
      checkFrame .A (requestFrame (.getStatus 7)) = .pass (.getStatus 7) ∧
      checkFrame .A (requestFrame (.getStatus 8)) = .fail .badArgument 0x01 ∧
      (ready .A .cueLog).portA.waiting = some .cueLog ∧
      ({ State.reset with startup := .loading } : State).portA.waiting = none ∧ State.reset.portA.waiting = none ∧
      ([0xA5, 0x30] : List Byte).length < 3 ∧ State.reset.ticking = false ∧ Takable .A .cueLog (ready .A .cueLog) ∧
      (ready .A .cueLog).ticking = true ∧ (ready .A .cueLog).samplesDone = 32 ∧
      ((ready .A .cueLog).port .A).waiting ≠ some .getPosition ∧ running.ticking = true ∧
      (running.port .A).waiting = none ∧ running.samplesDone ≠ 32 ∧ atOpenEnd.ticking = true ∧
      (atOpenEnd.port .A).waiting = none := by
  refine ⟨loadingAt_takable _ _, by decide, by decide +kernel, by decide +kernel, by decide +kernel, by decide +kernel,
    rfl, rfl, by decide, by decide, ready_takable _ _, ?_⟩
  decide +kernel

/-- A port that holds a refusal, a response, a waiting request or nothing. -/
theorem witness_ReadSelectionSends :
    running.blockEndOpen = false ∧ (running.port .A).live = none ∧ running.startup ≠ .off ∧
      State.reset.startup ≠ .off ∧ ((ready .A .cueLog).port .A).live = none ∧
      ((running.onPort .A fun x => { x with refusal := some 4 }).port .A).live = none ∧
      ((running.onPort .A fun x => { x with response := some ⟨.ok, 4, []⟩ }).port .A).live = none := by decide +kernel

theorem witness_LinkCommandsRun : Takable .A (.linkRestart .A) (ready .A (.linkRestart .A)) ∧
    Takable .C (.linkDisable .B) (ready .C (.linkDisable .B)) ∧ Takable .C (.linkEnable .C) (ready .C (.linkEnable .C)) :=
  ⟨ready_takable _ _, ready_takable _ _, ready_takable _ _⟩

theorem witness_HandoverRuns : portProg .B = some .B ∧ Takable .B .handover (ready .B .handover) :=
  ⟨rfl, ready_takable _ _⟩

/-- IDLE, ON each link, and a crossfade forced back at this block end; and after the show position block's work. -/
theorem witness_ForceProgrammeRuns :
      Takable .C (.forceProgramme (progLink .A)) { dueAt .C (.forceProgramme .A) with
        cueing := { Show.reset with workDone := true } } ∧
      (dueAt .C (.forceProgramme .A)).fit .A = true ∧
    Takable .C (.forceProgramme (progLink .A)) (readyLocked .C (.forceProgramme .A)) ∧
      (readyLocked .C (.forceProgramme .A)).fit .A = true ∧
      Takable .C (.forceProgramme (progLink .A)) { readyLocked .C (.forceProgramme .A) with
        sel := { Selector.reset with cur := .crossfade (some .A) .B 1, inForce := .on .A, setHere := true } } :=
  ⟨⟨rfl, rfl, Or.inr ⟨rfl, rfl⟩⟩, by decide +kernel, ⟨rfl, rfl, Or.inl rfl⟩, by decide +kernel, ⟨rfl, rfl, Or.inl rfl⟩⟩

theorem witness_PrimaryAndRevertSet : Takable .C (.setPrimary (progLink .B)) (ready .C (.setPrimary .B)) ∧
    Takable .C (.setRevert false) (ready .C (.setRevert false)) := ⟨ready_takable _ _, ready_takable _ _⟩

theorem witness_RoomSlotSetRuns : roomSlotSetOk 7 7 65535 255 ((List.range 8).map fun b => ⟨b, 65535⟩) = true ∧
    7 < (ready .C (.roomSlotSet 7 7 65535 255 ((List.range 8).map fun b => ⟨b, 65535⟩))).scene.roomSlots.length ∧
    Takable .C (.roomSlotSet 7 7 65535 255 ((List.range 8).map fun b => ⟨b, 65535⟩))
      (ready .C (.roomSlotSet 7 7 65535 255 ((List.range 8).map fun b => ⟨b, 65535⟩))) :=
  ⟨by decide +kernel, by decide +kernel, ready_takable _ _⟩

theorem witness_RoomSlotGainAndClear : 7 < (ready .C (.roomSlotGain 7 65535 255)).scene.roomSlots.length ∧
    Takable .C (.roomSlotGain 7 65535 255) (ready .C (.roomSlotGain 7 65535 255)) ∧
    7 < (ready .C (.roomSlotClear 7)).scene.roomSlots.length ∧
    Takable .C (.roomSlotClear 7) (ready .C (.roomSlotClear 7)) :=
  ⟨by decide +kernel, ready_takable _ _, by decide +kernel, ready_takable _ _⟩

theorem witness_RoomStateSet : Takable .C (.setProgrammeLevel 32769 0) (ready .C (.setProgrammeLevel 32769 0)) ∧
    Takable .C (.setMasterLevel 0 255) (ready .C (.setMasterLevel 0 255)) ∧ 3 ≤ 3 ∧
    Takable .C (.muteGroup 3 true) (ready .C (.muteGroup 3 true)) ∧ 65535 ≤ 65535 ∧ 255 ≤ 255 ∧
    (0x32 : Byte) = 0x32 ^^^ 0x02 ^^^ 3 ^^^ 1 :=
  ⟨ready_takable _ _, ready_takable _ _, by decide, ready_takable _ _, by decide, by decide, by decide⟩

/-- An empty stack and a full one. -/
theorem witness_RoomPushRuns : Takable .A (.roomPush (some 8192) none 4) (ready .A (.roomPush (some 8192) none 4)) ∧
    Takable .A (.roomPush none none 0) stacked ∧ stacked.room.stack.length = 8 :=
  ⟨ready_takable _ _, ⟨rfl, rfl, Or.inl rfl⟩, by decide +kernel⟩

/-- An empty stack, the port's own entry, and another's. -/
theorem witness_RoomPopRuns : Takable .A (.roomPop 0) (ready .A (.roomPop 0)) ∧
    Takable .A (.roomPop 0) { ready .A (.roomPop 0) with room := stacked.room } ∧
    Takable .B (.roomPop 0) { ready .B (.roomPop 0) with room := stacked.room } ∧
    stacked.room.stack.getLast?.map Overlay.owner = some .A :=
  ⟨ready_takable _ _, ⟨rfl, rfl, Or.inl rfl⟩, ⟨rfl, rfl, Or.inl rfl⟩, by decide +kernel⟩

/-- An acceptable cue with ids 1 and 255; a list that holds the id already. -/
theorem witness_CueAddRuns :
    cueOk ⟨1, some 15, some 65535, some 1999, .once, .muteGroup 3 true⟩ = true ∧
      cueOk ⟨255, some 1, none, none, .repeats, .notify⟩ = true ∧
      Takable .A (.cueAdd ⟨255, some 1, none, none, .repeats, .notify⟩)
        (ready .A (.cueAdd ⟨255, some 1, none, none, .repeats, .notify⟩)) ∧
      Takable .A (.cueAdd ⟨7, some 1, none, none, .repeats, .notify⟩)
        { ready .A (.cueAdd ⟨7, some 1, none, none, .repeats, .notify⟩) with cueing := cued.cueing } :=
  ⟨by decide, by decide, ready_takable _ _, ⟨rfl, rfl, Or.inl rfl⟩⟩

theorem witness_CueCancelRuns : Takable .A (.cueCancel 7) { ready .A (.cueCancel 7) with cueing := cued.cueing } ∧
    Takable .B (.cueCancel 7) { ready .B (.cueCancel 7) with cueing := cued.cueing } :=
  ⟨⟨rfl, rfl, Or.inl rfl⟩, ⟨rfl, rfl, Or.inl rfl⟩⟩

/-- The scene law holds where a record is applied; and a block end with a closing programme, whose queue holds a record at
its read index and one above it, and whose read position is not fresh, or fresh from a slip or a lock. -/
theorem witness_RecordsCheckedAndApplied : SceneLaw peopled ∧
    [Fresh.no, .slip 7, .lock].all (fun fresh =>
      let s := { pair 128 with linkA := { lockedLink 112 with
        fresh := fresh, queue := [⟨160, .sceneRelease 0⟩, ⟨161, .slotRelease 128 0⟩] } }
      decide (s.startup = .run) && !s.blockEndOpen && decide (s.sel.inForce = .on .A) &&
        decide (s.linkA.readPos = some ⟨160, 0⟩) && decide (s.linkA.fresh = fresh)) = true ∧
    NoTakes order (pair 128) := ⟨witness_SceneLawKept.1, by decide +kernel, nofun⟩

/-- The last position of a reel, and the largest frame and offset; a stamp of each transport and the most frames that can
pass; a coverage of one position, one across the end of a reel, and one in another reel; and a programme that goes on. -/
theorem witness_CueSetMetExactly : (⟨15, 131071999⟩ : ShowPos).lin < 131072000 ∧
    (∀ f ∈ some 65535, f ≤ 65535) ∧ (∀ o ∈ some 1999, o ≤ 1999) ∧ 2147483647 < 2147483648 ∧
    (⟨160, ⟨3, 0⟩, .hold, 1, true⟩ : Stamp).transport = .hold ∧
    (⟨160, ⟨3, 0⟩, .play, 1, true⟩ : Stamp).transport = .play ∧
    (131071999 + 0) % 131072000 = 131071999 ∧ (131071999 + 65535999) % 131072000 = 65535998 ∧
    (⟨2, 5⟩ : ShowPos).reel ≠ (⟨3, 5⟩ : ShowPos).reel ∧
    (pair 128).startup = .run ∧ (pair 128).blockEndOpen = false ∧ NoTakes order (pair 128) ∧
    (pair 128).sel.cur = .on .A ∧ (pair 128).sel.inForce = .on .A ∧ (pair 128).sel.primary = .A ∧
    (pair 128).fit .A = true := by
  refine ⟨by decide, by decide, by decide, by decide, rfl, rfl, by decide, by decide, by decide, rfl, rfl, nofun, rfl,
    rfl, rfl, by decide +kernel⟩

theorem witness_OutputSettingsSet : Takable .C (.setBusTrim 63 65535) (ready .C (.setBusTrim 63 65535)) ∧
    Takable .C (.setBusDistance 63 60001) (ready .C (.setBusDistance 63 60001)) ∧
    Takable .C (.setAirTemp (-128)) (ready .C (.setAirTemp (-128))) ∧
    Takable .C (.setMuteGroup 3 [0, 63, 63]) (ready .C (.setMuteGroup 3 [0, 63, 63])) ∧ [0, 63, 63].length ≤ 64 ∧
    ∀ b ∈ [0, 63, 63], b ≤ 63 :=
  ⟨ready_takable _ _, ready_takable _ _, ready_takable _ _, ready_takable _ _, by decide, by decide⟩

/-- The four reads at the ends of their ranges; an open block end at which an answer still follows; and 64 buses. -/
theorem witness_ReadsAnswered : TakableLoading .B (.getStatus 7) (loadingAt .B (.getStatus 7)) ∧ Takable .A (.getStatus 7) (ready .A (.getStatus 7)) ∧
    Takable .B .getPosition (ready .B .getPosition) ∧ (SlotKind.programme = .room → 127 ≤ 7) ∧ (SlotKind.room = .programme → 7 ≤ 127) ∧
    Takable .C (.getSlot .room 7) (ready .C (.getSlot .room 7)) ∧
    Takable .A (.cueList 47) (ready .A (.cueList 47)) ∧
    (let s := atOpenEnd.onPort .A fun x => { x with response := some ⟨.ok, 0x04, []⟩, live := some .getPosition }
    s.blockEndOpen = true ∧ (∀ q, (s.port q).due = false) ∧ (s.port .A).live = some .getPosition ∧
      s.buses.length = 64) ∧ 3 ≤ 3 :=
  ⟨loadingAt_takable _ _, ready_takable _ _, ready_takable _ _, nofun, nofun, ready_takable _ _, ready_takable _ _,
    ⟨rfl, fun q => by cases q <;> rfl, rfl, by decide +kernel⟩, by decide⟩

theorem witness_CountersReadAndCleared : Takable .A (.getCounters 2) (ready .A (.getCounters 2)) ∧
    Takable .C .clearCounters (ready .C .clearCounters) := ⟨ready_takable _ _, ready_takable _ _⟩

theorem witness_MetersRead : 3 ≤ 3 ∧ ((ready .B (.getMeters 3)).port .B).peaks.length = 64 ∧
    (ready .B (.getMeters 3)).buses.length = 64 ∧ Takable .B (.getMeters 3) (ready .B (.getMeters 3)) :=
  ⟨by decide, by decide +kernel, by decide +kernel, ready_takable _ _⟩

theorem witness_LogAndNotices : Takable .A .cueLog (ready .A .cueLog) ∧ Takable .B .getNotices (ready .B .getNotices) ∧
    Takable .C (.setNoticeMask 0xFFFF) (ready .C (.setNoticeMask 0xFFFF)) ∧
    Takable .C (.setNoticeEnable true) (ready .C (.setNoticeEnable true)) :=
  ⟨ready_takable _ _, ready_takable _ _, ready_takable _ _, ready_takable _ _⟩

/-- Without and with a write that runs. -/
theorem witness_StoreSettingsRuns : Takable .C .storeSettings (ready .C .storeSettings) ∧
    Takable .C .storeSettings { ready .C .storeSettings with store := ⟨.torn, false, some defaultSettings, .untried⟩ } :=
  ⟨ready_takable _ _, ⟨rfl, rfl, Or.inl rfl⟩⟩

theorem witness_ResetsRun : Takable .C .restart (ready .C .restart) := ready_takable _ _

theorem witness_ResetEnds : State.reset.startup = .reset := rfl

/-- The earliest and the latest end of a load. -/
theorem witness_LoadEnds :
    [(40960, 2, 16), (57344, 3, 16)].all (fun v =>
      let s : State := { State.reset with
        startup := .loading, tick := BitVec.ofNat 32 v.1, blockCount := BitVec.ofNat 32 v.2.1, samplesDone := v.2.2 }
      decide (s.startup = .loading) && !s.blockEndOpen && decide (40960 ≤ s.tick.toNat) &&
        decide (s.tick.toNat ≤ 57344) && decide (2 ≤ s.blockCount.toNat) && decide (s.buses.length = 64)) = true := by
  decide +kernel

theorem witness_ResetCauseReadAndAcknowledged :
    TakableLoading .C .getResetCause (loadingAt .C .getResetCause) ∧ Takable .A .getResetCause (ready .A .getResetCause) ∧
    Takable .C .ackResetCause (ready .C .ackResetCause) :=
  ⟨loadingAt_takable _ _, ready_takable _ _, ready_takable _ _⟩

/-- Periods at the ends of the tolerance, and the 64th and the fourth in a row. -/
theorem witness_ReferenceEdge :
    running.startup = .run ∧ ({ State.reset with startup := .loading } : State).startup = .loading ∧
      [502, 522].all inTolerance = true ∧ [501, 523].any inTolerance = false ∧
      ({ running with ref := { Reference.reset with state := .acquiring, qual := 63 } } : State).ref.qual + 1 = 64 ∧
      ({ running with ref := { Reference.reset with state := .locked, bad := 3 } } : State).ref.bad + 1 = 4 := by
  decide +kernel

theorem witness_ReferenceMissingAndPullIn :
    ({ running with ref := { Reference.reset with state := .acquiring, missing := 3 } } : State).ref.missing + 1 = 4 ∧
      running.startup = .run := by decide +kernel

end Sys2Proof.Tests
end

section
/-! SUPPORT. Bytes on the wires: the model's byte helpers give what `wire` and its companions of Safety.lean say, and the
cyclic check of R4 is formed bit by bit. -/

namespace Sys2Proof.Machine

/-! ### Numbers (R164) -/

@[simp] theorem wire_one (v : Nat) : wire 1 v = [byteOf v] := by simp [wire, byteOf]

@[simp] theorem wire_two (v : Nat) : wire 2 v = bytes16 v := by simp [wire, bytes16, byteOf, List.range_succ]

theorem wire_four (v : Nat) : wire 4 v = bytes32 v := by simp [wire, bytes32, byteOf, List.range_succ]

theorem wire_eight (v : BitVec 64) : wire 8 v.toNat = bytes64 v := by
  simp [wire, bytes64, bytes32, byteOf, List.range_succ, Nat.div_div_eq_div_mul]

@[simp] theorem wireBool_eq (b : Bool) : wireBool b = [boolByte b] := by cases b <;> rfl

@[simp] theorem wireLink_eq (x : Option ProgLink) : wireLink x = [progByte x] := by
  rcases x with _ | _ | _ <;> rfl

theorem wireSigned_one (v : Int) : wireSigned 1 v = [BitVec.ofInt 8 v] := by
  rw [wireSigned, wire_one]
  refine congrArg (fun b : Byte => [b]) (BitVec.eq_of_toNat_eq ?_)
  simp only [byteOf, BitVec.toNat_ofNat, BitVec.toNat_ofInt]
  omega

theorem wireSigned_four (v : Int) : wireSigned 4 v = signed32 v := by
  simp [wireSigned, wire_four, signed32]

/-! ### The cyclic check (R4) -/

/-- One bit of the check as R4 says it. -/
def checkBit (r : BitVec 16) (bit : Bool) : BitVec 16 :=
  if r.msb ≠ bit then (r <<< 1) ^^^ 0x1021#16 else r <<< 1

/-- A byte laid over the register's upper half is shifted out of it bit by bit. -/
theorem crcBit_xor_byte (r : BitVec 16) (c : Byte) :
    crcBit (r ^^^ (c.setWidth 16 <<< 8)) = checkBit r c.msb ^^^ ((c <<< 1).setWidth 16 <<< 8) := by
  have hmsb : (c.setWidth 16 <<< 8).msb = c.msb := by revert c; decide
  have hshift : c.setWidth 16 <<< 8 <<< 1 = (c <<< 1).setWidth 16 <<< 8 := by revert c; decide
  simp only [crcBit, checkBit, BitVec.msb_xor, hmsb, BitVec.shiftLeft_xor_distrib, hshift]
  cases r.msb <;> cases c.msb <;> simp [BitVec.xor_assoc, BitVec.xor_comm (BitVec.setWidth 16 (c <<< 1) <<< 8)]

/-- One byte of the check is its 8 bits, most significant first. -/
theorem crcByte_eq_wireBits (r : BitVec 16) (b : Byte) : crcByte r b = (wireBits b).foldl checkBit r := by
  have hout : (b <<< 1 <<< 1 <<< 1 <<< 1 <<< 1 <<< 1 <<< 1 <<< 1).setWidth 16 = 0#16 := by revert b; decide
  have hbits : wireBits b = [b.msb, (b <<< 1).msb, (b <<< 1 <<< 1).msb, (b <<< 1 <<< 1 <<< 1).msb,
      (b <<< 1 <<< 1 <<< 1 <<< 1).msb, (b <<< 1 <<< 1 <<< 1 <<< 1 <<< 1).msb,
      (b <<< 1 <<< 1 <<< 1 <<< 1 <<< 1 <<< 1).msb, (b <<< 1 <<< 1 <<< 1 <<< 1 <<< 1 <<< 1 <<< 1).msb] := by
    revert b; decide
  rw [hbits, crcByte]
  simp only [crcBit_xor_byte, List.foldl_cons, List.foldl_nil, hout]
  simp

/-- The check of the model is the check of R4, bit by bit. -/
theorem crc16_eq_wireCheck (bytes : List Byte) : crc16 bytes = wireCheck bytes := by
  have hfold : ∀ r : BitVec 16, bytes.foldl crcByte r = (bytes.flatMap wireBits).foldl checkBit r := by
    induction bytes with
    | nil => intro r; rfl
    | cons b rest ih => intro r; simp only [List.foldl_cons, List.flatMap_cons, List.foldl_append, ih, crcByte_eq_wireBits]
  exact hfold _

/-! ### The settings record (R170) -/

/-- The record's contents stand in the order of the table of R170. -/
theorem recordBytes_eq_wireSettings (v : Settings) : recordBytes v = wireSettings v := by
  simp only [recordBytes, wireSettings, wireLink_eq, wireBool_eq, wireSigned_one, wire_eight, wire_two, progByte,
    show wire 2 = bytes16 from funext wire_two]
  rfl

/-- A record's check is that of R4 over its contents. -/
theorem recordOf_eq (v : Settings) : recordOf v = ⟨v, wireCheck (wireSettings v)⟩ := by
  rw [recordOf, recordBytes_eq_wireSettings, crc16_eq_wireCheck]

end Sys2Proof.Machine
end

section
/-! SUPPORT. The power-on state, the end of a store write and the end of the load: O3, O54 and O57. -/

namespace Sys2Proof.Machine

/-- Settles O3: each field's reset value, read off `State.reset` and the reset records that it is made of. -/
theorem resetState : Obligations.ResetState := by
  unfold Obligations.ResetState
  refine ⟨rfl, rfl, rfl, ?links, rfl, rfl, rfl, rfl, rfl, rfl, rfl, rfl, rfl, rfl, rfl, ?buses, rfl, rfl, rfl, ?ports,
    rfl, rfl, rfl, rfl, rfl, rfl⟩
  case links =>
    intro l
    cases l <;>
      exact ⟨rfl, rfl, rfl, rfl, rfl, rfl, rfl, rfl, rfl, rfl, rfl, rfl, rfl, rfl, rfl, rfl, rfl, rfl, rfl, rfl, rfl,
        rfl, rfl, rfl, rfl⟩
  case buses =>
    intro b hb
    obtain rfl : b = Bus.reset := List.eq_of_mem_replicate hb
    exact ⟨rfl, rfl, rfl, rfl, rfl, rfl, rfl, rfl, rfl, rfl⟩
  case ports => intro p; cases p <;> exact ⟨rfl, rfl, rfl, rfl, rfl, rfl, rfl, rfl, rfl⟩

/-! ### STORE_WRITE_END (R171) -/

theorem exec_storeWriteEnd (readBack : SettingsRecord) (s : State) :
    exec (.storeWriteEnd readBack) s = execStoreWriteEnd readBack s := rfl

/-- The end of a running write: the store as `CalStore.endWrite` leaves it, with STORE_DONE at port C. -/
theorem execStoreWriteEnd_writing {readBack : SettingsRecord} {s : State} {v : Settings} (h : s.store.writing = some v) :
    execStoreWriteEnd readBack s =
      .next (({ s with store := s.store.endWrite v readBack } : State).notify .C .storeDone) := by
  simp [execStoreWriteEnd, h]

/-- Settles O54: without a write running nothing happens; otherwise the read-back is held against the snapshot's record,
whose check is R4's (`recordOf_eq`). -/
theorem storeWriteEnds : Obligations.StoreWriteEnds := by
  unfold Obligations.StoreWriteEnds
  intro readBack s
  cases hw : s.store.writing with
  | none => exact ⟨s, by simp [exec_storeWriteEnd, execStoreWriteEnd, hw], rfl⟩
  | some v =>
    refine ⟨_, (exec_storeWriteEnd readBack s).trans (execStoreWriteEnd_writing hw), ⟨rfl, ?others⟩, ?stored⟩
    case others =>
      intro q hq
      rw [State.port_notify, if_neg hq]
      cases q <;> rfl
    case stored =>
      rw [← recordOf_eq]
      split
      case isTrue h => simp only [CalStore.endWrite, if_pos h]; rfl
      case isFalse h => simp only [CalStore.endWrite, if_neg h]; rfl

/-! ### LOAD_END (R173) -/

theorem exec_loadEnd (s : State) : exec .loadEnd s = execLoadEnd s := rfl

/-- The model's test of a record's ranges is that of R170. -/
theorem settingsInRange_iff (v : Settings) : settingsInRange v = true ↔ InRecordRange v := by
  simp [settingsInRange, InRecordRange, and_assoc]

theorem inRecordRange_default : InRecordRange defaultSettings := by
  simp [InRecordRange, defaultSettings, Config.unity]

/-- A record is VALID when its check is R4's over its contents and its values are in range (R170). -/
theorem validValues_record (r : SettingsRecord) :
    (NvMemory.record r).validValues =
      if r.check = wireCheck (wireSettings r.values) ∧ settingsInRange r.values = true then some r.values else none := by
  have hr : r = recordOf r.values ↔ r.check = wireCheck (wireSettings r.values) := by
    rw [recordOf_eq]
    cases r
    simp
  simp only [NvMemory.validValues, hr]

/-- The settings that a load takes: those of a VALID record, or the defaults (R170). -/
def NvMemory.loaded (m : NvMemory) : Settings :=
  match m with
  | .record r =>
    if r.check = wireCheck (wireSettings r.values) ∧ settingsInRange r.values = true then r.values else defaultSettings
  | _ => defaultSettings

theorem NvMemory.loaded_eq (m : NvMemory) : m.loaded = m.validValues.getD defaultSettings := by
  cases m with
  | blank => rfl
  | torn => rfl
  | record r =>
    simp only [NvMemory.loaded, validValues_record]
    split <;> rfl

theorem NvMemory.validValues_inRange {m : NvMemory} {v : Settings} (h : m.validValues = some v) : InRecordRange v := by
  cases m with
  | blank => cases h
  | torn => cases h
  | record r =>
    rw [validValues_record] at h
    split at h
    case isTrue hv => cases h; exact (settingsInRange_iff _).mp hv.2
    case isFalse => cases h

theorem NvMemory.loaded_inRange (m : NvMemory) : InRecordRange m.loaded := by
  rw [NvMemory.loaded_eq]
  cases h : m.validValues with
  | none => exact inRecordRange_default
  | some v => exact validValues_inRange h

/-- The memory holds a VALID record exactly when a load finds values in it (R170). -/
theorem NvMemory.validValues_isSome (m : NvMemory) :
    m.validValues.isSome = true ↔ ∃ r, m = .record r ∧ r.check = wireCheck (wireSettings r.values) ∧
      InRecordRange r.values := by
  cases m with
  | blank => simp [NvMemory.validValues]
  | torn => simp [NvMemory.validValues]
  | record r => simp [validValues_record, settingsInRange_iff]

/-- A load in one line: the settings found or the defaults, and what that makes of the VALID flag and of the cause. -/
theorem State.load_eq (s : State) :
    s.load = { s.applySettings s.store.memory.loaded with
      store := { s.store with valid := s.store.memory.validValues.isSome }
      cause := if s.store.memory.validValues.isSome = true then s.cause else { s.cause with lost := true }
      startup := .run } := by
  rw [State.load, NvMemory.loaded_eq]
  cases s.store.memory.validValues <;> rfl

/-- A load that ends at a closed block end within its bounds passes no time (R173; log 18). -/
theorem State.runToLoadEnd_within {s : State} (ho : s.blockEndOpen = false) (ht : 40960 ≤ s.tick.toNat)
    (hb : 2 ≤ s.blockCount.toNat) : s.runToLoadEnd = s := by
  simp [State.runToLoadEnd, ho, Nat.not_lt.mpr ht, Nat.not_lt.mpr hb]

/-- The buses with the trims and distances of a set of settings. -/
def placeBuses (v : Settings) (buses : List Bus) : List Bus :=
  List.zipWith (fun (b : Bus) (td : Nat × Nat) => { b with trim := td.1, distance := td.2 }) buses
    (List.zip v.trims v.distances)

theorem State.applySettings_buses (v : Settings) (s : State) :
    (s.applySettings v).buses = (computeDelays v.airTemp (placeBuses v s.buses)).map Bus.seatDelay := rfl

/-- Computing and seating the delays leaves every trim and distance. -/
theorem map_trim_seated (temp : Int) (buses : List Bus) :
    ((computeDelays temp buses).map Bus.seatDelay).map (·.trim) = buses.map (·.trim) := by
  simp only [computeDelays, List.map_map]
  exact List.map_congr_left fun b _ => by cases b; rfl

theorem map_distance_seated (temp : Int) (buses : List Bus) :
    ((computeDelays temp buses).map Bus.seatDelay).map (·.distance) = buses.map (·.distance) := by
  simp only [computeDelays, List.map_map]
  exact List.map_congr_left fun b _ => by cases b; rfl

section
variable {v : Settings} {buses : List Bus} (hb : buses.length = 64) (ht : v.trims.length = 64)
  (hd : v.distances.length = 64)
include hb ht hd

theorem placeBuses_length : (placeBuses v buses).length = 64 := by simp [placeBuses, hb, ht, hd]

theorem placeBuses_map_trim : (placeBuses v buses).map (·.trim) = v.trims := by
  apply List.ext_getElem
  · simp [placeBuses, hb, ht, hd]
  · intro i _ _; simp [placeBuses]

theorem placeBuses_map_distance : (placeBuses v buses).map (·.distance) = v.distances := by
  apply List.ext_getElem
  · simp [placeBuses, hb, ht, hd]
  · intro i _ _; simp [placeBuses]

/-- The greatest flight time is that of the distances that were taken (R145). -/
theorem greatestFlight_placeBuses (c : Nat) :
    greatestFlight c (placeBuses v buses) = (v.distances.map (flightTime c)).foldl max 0 := by
  rw [greatestFlight, ← placeBuses_map_distance hb ht hd, List.map_map]
  rfl

theorem placeBuses_getD {i : Nat} (hi : i < 64) :
    (placeBuses v buses).getD i Bus.reset =
      { buses.getD i Bus.reset with trim := v.trims.getD i 0, distance := v.distances.getD i 0 } := by
  simp [placeBuses, List.getD_eq_getElem?_getD, hb, ht, hd, hi]

end

/-- Settles O57: within its bounds the load passes no time (`State.runToLoadEnd_within`) and takes the settings that it
finds (`State.load_eq`); every bus is then read off `placeBuses`. -/
theorem loadEnds : Obligations.LoadEnds := by
  unfold Obligations.LoadEnds
  intro s hs ho ht1 ht2 hb hbuses
  have hexec : exec .loadEnd s = .next s.load := by
    rw [exec_loadEnd, execLoadEnd, if_pos ⟨hs, ht2⟩, State.runToLoadEnd_within ho ht1 hb]
  refine ⟨s.load, hexec, ?_⟩
  obtain ⟨htrims, -, hdist, -⟩ := s.store.memory.loaded_inRange
  have hvalid := s.store.memory.validValues_isSome
  rw [State.load_eq]
  refine ⟨fun r _ => settingsInRange_iff _, rfl, rfl, hvalid, ?cause, ?lost, rfl, rfl, rfl, rfl, ?trims, ?distances,
    ?each, ?seated, rfl, rfl, rfl, rfl, rfl, ?ports, ?links⟩
  case cause => intro h; exact if_pos (hvalid.mpr h)
  case lost => intro h; exact if_neg (mt hvalid.mp h)
  case trims => exact (map_trim_seated _ _).trans (placeBuses_map_trim hbuses htrims hdist)
  case distances => exact (map_distance_seated _ _).trans (placeBuses_map_distance hbuses htrims hdist)
  case each =>
    intro c flight far i hi
    have hlen : i < (placeBuses s.store.memory.loaded s.buses).length := by
      rwa [placeBuses_length hbuses htrims hdist]
    have hget := placeBuses_getD hbuses htrims hdist hi
    rw [List.getD_eq_getElem _ _ hlen] at hget
    simp only [State.applySettings_buses, computeDelays, greatestFlight_placeBuses hbuses htrims hdist, List.map_map]
    rw [List.getD_eq_getElem _ _ (by simpa using hlen), List.getElem_map, hget]
    rfl
  case seated =>
    simp only [State.applySettings_buses, List.mem_map]
    rintro _ ⟨b, -, rfl⟩
    exact ⟨rfl, rfl⟩
  case ports => intro q; cases q <;> rfl
  case links => intro l; cases l <;> rfl

end Sys2Proof.Machine
end

section
/-! SUPPORT. What the operations of chapter 1 reach: the command of a link acts on that link and on the ports' pending
notices, and on nothing else. -/

namespace Sys2Proof.Machine

/-! ### The commands as executed -/

theorem exec_startSymbol (l : LinkId) (ticks : Nat) (s : State) :
    exec (.startSymbol l ticks) s = execStartSymbol l ticks s := rfl

theorem exec_feedBlock (l : LinkId) (symbols : List Symbol) (s : State) :
    exec (.feedBlock l symbols) s = execFeedBlock l symbols s := rfl

theorem exec_gapTimerExpiry (l : LinkId) (s : State) : exec (.gapTimerExpiry l) s = execGapTimerExpiry l s := rfl

theorem exec_holdoverTimerExpiry (l : LinkId) (s : State) :
    exec (.holdoverTimerExpiry l) s = execHoldoverTimerExpiry l s := rfl

/-! ### Notices -/

theorem Notice.ofNat_bit (n : Notice) : Notice.ofNat n.bit = n := by cases n <;> rfl

/-- Different events have different bits (R167). -/
theorem Notice.bit_inj {m n : Notice} (h : m.bit = n.bit) : m = n := by
  rw [← Notice.ofNat_bit m, h, Notice.ofNat_bit]

/-- Raising one event leaves every other as it was. -/
theorem Port.isRaised_raise_of_ne {m n : Notice} (h : m ≠ n) (x : Port) : (x.raise n).isRaised m = x.isRaised m := by
  have hbit : ¬ m.bit - n.bit = 0 ∨ m.bit < n.bit := by
    have := mt Notice.bit_inj h
    omega
  simp only [Port.isRaised, Port.raise, BitVec.getLsbD_or, BitVec.getLsbD_shiftLeft, BitVec.getLsbD_one]
  rcases hbit with hbit | hbit <;> simp [hbit]

theorem Port.isRaised_raise_mono {m n : Notice} {x : Port} (h : x.isRaised m = true) :
    (x.raise n).isRaised m = true := by
  by_cases hm : m = n
  · rw [hm, Port.isRaised_raise]
  · rw [Port.isRaised_raise_of_ne hm, h]

/-! ### The parts of a block's reception that follow its handing on -/

/-- A link whose run has grown by a block. -/
def Link.grown (seq : Seq) (capture : Tick) (x : Link) : Link :=
  { (x.pushCapture seq capture).restartGap capture with run := x.run + 1 }

/-- A block of an ACQUIRE link in step, once it is handed on: its capture, its measurement and what comes of it (R12). -/
def State.judgeRun (l : LinkId) (b : FeedBlock) (capture : Tick) (s : State) : State :=
  let s := s.onLink l (Link.grown b.header.seq capture)
  let m := (s.link l).measure b.header.seq capture
  let s := s.onLink l (Link.applyMeasure m)
  match m with
  | .paused => s
  | .fault => s.reenterRun l b capture
  | .accepted _ => if 9 ≤ (s.link l).run then (s.onLink l Link.lock).setLinkState l .locked else s

theorem State.extendRun_eq (l : LinkId) (b : FeedBlock) (capture : Tick) (s : State) :
    s.extendRun l b capture = (s.handOn l b b.frames).judgeRun l b capture := rfl

/-- A block of a LOCKED link, once it is handed on: its capture, its measurement, the fill check and the correction
(R32). -/
def State.settleLocked (l : LinkId) (b : FeedBlock) (capture : Tick) (s : State) : State :=
  let s := s.onLink l (Link.pushCapture b.header.seq capture)
  let s := s.onLink l fun x => x.applyMeasure (x.measure b.header.seq capture)
  (s.slipCheck l).onLink l fun x => x.correct.restartGap capture

theorem State.handOnLocked_eq (l : LinkId) (b : FeedBlock) (capture : Tick) (frames : List (List Int)) (s : State) :
    s.handOnLocked l b capture frames = (s.handOn l b frames).settleLocked l b capture := rfl

/-! ### Acting on one link -/

/-- From `s` to `t` at most the tick, link `l` and the ports' pending notices changed; no pending notice was lost, and
none came but those of `N`. -/
structure ActsOnLink (l : LinkId) (N : Notice → Prop) (s t : State) : Prop where
  frame : t = (({ s with tick := t.tick } : State).withPortsOf t).withLinksOf t
  others : ∀ k, k ≠ l → t.link k = s.link k
  ports : ∀ q, t.port q = { s.port q with raised := (t.port q).raised }
  kept : ∀ q n, (s.port q).isRaised n = true → (t.port q).isRaised n = true
  raised : ∀ q n, ¬ N n → (t.port q).isRaised n = (s.port q).isRaised n

namespace ActsOnLink

variable {l : LinkId} {N : Notice → Prop} {s t u : State}

theorem refl (l : LinkId) (N : Notice → Prop) (s : State) : ActsOnLink l N s s :=
  ⟨rfl, fun _ _ => rfl, fun _ => rfl, fun _ _ h => h, fun _ _ _ => rfl⟩

theorem trans (h₁ : ActsOnLink l N s t) (h₂ : ActsOnLink l N t u) : ActsOnLink l N s u where
  frame := h₂.frame.trans (by rw [h₁.frame]; rfl)
  others k hk := (h₂.others k hk).trans (h₁.others k hk)
  ports q := (h₂.ports q).trans (by rw [h₁.ports q])
  kept q n h := h₂.kept q n (h₁.kept q n h)
  raised q n h := (h₂.raised q n h).trans (h₁.raised q n h)

theorem samplesDone (h : ActsOnLink l N s t) : t.samplesDone = s.samplesDone := by rw [h.frame]; rfl

theorem onLink (f : Link → Link) : ActsOnLink l N s (s.onLink l f) where
  frame := by cases l <;> rfl
  others k hk := by rw [State.link_onLink, if_neg hk]
  ports q := by rw [State.port_onLink]
  kept q n h := by rwa [State.port_onLink]
  raised q n _ := by rw [State.port_onLink]

theorem setTick (d : Tick) : ActsOnLink l N s { s with tick := d } where
  frame := rfl
  others k _ := by cases k <;> rfl
  ports q := by cases q <;> rfl
  kept q n h := by cases q <;> exact h
  raised q n _ := by cases q <;> rfl

theorem notify (p : PortId) {n : Notice} (hn : N n) : ActsOnLink l N s (s.notify p n) where
  frame := by cases p <;> rfl
  others k _ := State.link_notify s p n k
  ports q := by rw [State.port_notify]; split <;> rfl
  kept q m h := by
    rw [State.port_notify]
    split
    · exact Port.isRaised_raise_mono h
    · exact h
  raised q m hm := by
    rw [State.port_notify]
    split
    · exact Port.isRaised_raise_of_ne (fun e => hm (by rwa [e])) _
    · rfl

theorem notifyAll {n : Notice} (hn : N n) : ActsOnLink l N s (s.notifyAll n) :=
  ((notify .A hn).trans (notify .B hn)).trans (notify .C hn)

theorem notifyServer (k : LinkId) {n : Notice} (hn : N n) : ActsOnLink l N s (s.notifyServer k n) :=
  (notify _ hn).trans (notify .C hn)

theorem setPhase (ph : Phase) : ActsOnLink l N s (s.setPhase l ph) := onLink _

theorem setLinkState (st : LinkState) (h : N .linkState) : ActsOnLink l N s (s.setLinkState l st) := by
  unfold State.setLinkState
  split
  · exact refl ..
  · exact (onLink _).trans (notifyAll h)

theorem enterSearch (h : N .linkState) : ActsOnLink l N s (s.enterSearch l) := (onLink _).trans (setLinkState _ h)

theorem dropMalformed (h : N .linkState) : ActsOnLink l N s (s.dropMalformed l) := by
  unfold State.dropMalformed
  dsimp only
  split
  · exact (onLink _).trans (enterSearch h)
  · exact onLink _

/-! #### Handing a block on (R10) -/

theorem offerRecord (tag : FrameIndex) (r : MetaRecord) (h : N .metadataDrop) :
    ActsOnLink l N s (s.offerRecord l tag r) := by
  unfold State.offerRecord
  split
  · exact onLink _
  · split
    · exact onLink _
    · exact (onLink _).trans (notifyServer _ h)

theorem offerRecords (tag : FrameIndex) (rs : List MetaRecord) (h : N .metadataDrop) :
    ActsOnLink l N s (s.offerRecords l tag rs) := by
  induction rs generalizing s with
  | nil => exact refl ..
  | cons r rs ih => exact (offerRecord tag r h).trans ih

theorem recordStatus (b : FeedBlock) (h : N .serverStatus) : ActsOnLink l N s (s.recordStatus l b) := by
  unfold State.recordStatus
  dsimp only
  split
  · exact onLink _
  · exact (onLink _).trans (notifyAll h)

theorem handOn (b : FeedBlock) (frames : List (List Int)) (hm : N .metadataDrop) (hs : N .serverStatus) :
    ActsOnLink l N s (s.handOn l b frames) :=
  ((onLink _).trans (offerRecords _ _ hm)).trans (recordStatus _ hs)

theorem slipCheck (h : N .slip) : ActsOnLink l N s (s.slipCheck l) := by
  unfold State.slipCheck
  split
  · exact (onLink _).trans (notifyServer _ h)
  · exact refl ..

theorem beginRun (b : FeedBlock) (capture : Tick) (hm : N .metadataDrop) (hs : N .serverStatus) :
    ActsOnLink l N s (s.beginRun l b capture) :=
  ((onLink _).trans (handOn b _ hm hs)).trans (onLink _)

theorem reenterRun (b : FeedBlock) (capture : Tick) (hm : N .metadataDrop) :
    ActsOnLink l N s (s.reenterRun l b capture) := by
  unfold State.reenterRun
  dsimp only
  split
  · exact onLink _
  · exact (onLink _).trans (offerRecords _ _ hm)

theorem judgeRun (b : FeedBlock) (capture : Tick) (hl : N .linkState) (hm : N .metadataDrop) :
    ActsOnLink l N s (s.judgeRun l b capture) := by
  unfold State.judgeRun
  dsimp only
  split
  · exact (onLink _).trans (onLink _)
  · exact ((onLink _).trans (onLink _)).trans (reenterRun b capture hm)
  · split
    · exact (((onLink _).trans (onLink _)).trans (onLink _)).trans (setLinkState _ hl)
    · exact (onLink _).trans (onLink _)

theorem conceal (g : Nat) (h : N .slip) : ActsOnLink l N s (s.conceal l g) := by
  induction g generalizing s with
  | zero => exact refl ..
  | succ g ih => exact ((onLink _).trans (slipCheck h)).trans ih

theorem extendRun (b : FeedBlock) (capture : Tick) (hl : N .linkState) (hm : N .metadataDrop)
    (hs : N .serverStatus) : ActsOnLink l N s (s.extendRun l b capture) :=
  (handOn b _ hm hs).trans (judgeRun b capture hl hm)

theorem settleLocked (b : FeedBlock) (capture : Tick) (h : N .slip) :
    ActsOnLink l N s (s.settleLocked l b capture) := by
  unfold State.settleLocked
  exact (((onLink _).trans (onLink _)).trans (slipCheck h)).trans (onLink _)

theorem handOnLocked (b : FeedBlock) (capture : Tick) (frames : List (List Int)) (hm : N .metadataDrop)
    (hs : N .serverStatus) (h : N .slip) : ActsOnLink l N s (s.handOnLocked l b capture frames) :=
  (handOn b _ hm hs).trans (settleLocked b capture h)

theorem takeLocked (b : FeedBlock) (capture : Tick) (d : Nat) (hm : N .metadataDrop) (hs : N .serverStatus)
    (h : N .slip) : ActsOnLink l N s (s.takeLocked l b capture d) := by
  unfold State.takeLocked
  split
  · exact handOnLocked b capture _ hm hs h
  · exact ((onLink _).trans (conceal _ h)).trans (handOnLocked b capture _ hm hs h)

end ActsOnLink

end Sys2Proof.Machine
end

section
/-! SUPPORT. Link states, timers and STARTs (chapter 1): O19, O24, O25, O26 and the link commands of O34. -/

namespace Sys2Proof.Machine

/-! ### Link states (R9, R18) -/

@[simp] theorem State.link_setLinkState (l : LinkId) (st : LinkState) (s : State) :
    (s.setLinkState l st).link l = { s.link l with state := st } := by
  unfold State.setLinkState
  split
  case isTrue h => rw [← h]
  case isFalse h => simp

/-- Only a change of state raises LINK_STATE, and then at all three ports (R9). -/
theorem State.port_setLinkState (l : LinkId) (st : LinkState) (s : State) (q : PortId) :
    (s.setLinkState l st).port q = if (s.link l).state = st then s.port q else (s.port q).raise .linkState := by
  unfold State.setLinkState
  split <;> simp

@[simp] theorem State.link_enterSearch (l : LinkId) (s : State) :
    (s.enterSearch l).link l = { (s.link l).cleared with state := .search } := by simp [State.enterSearch]

theorem State.port_enterSearch (l : LinkId) (s : State) (q : PortId) :
    (s.enterSearch l).port q = if (s.link l).state = .search then s.port q else (s.port q).raise .linkState := by
  simp [State.enterSearch, State.port_setLinkState, Link.cleared]

/-- Leaving any other state for SEARCH raises LINK_STATE at every port. -/
theorem State.raisedAtAll_enterSearch {l : LinkId} {s : State} (h : (s.link l).state ≠ .search) :
    RaisedAtAll .linkState s (s.enterSearch l) := fun q => by rw [State.port_enterSearch, if_neg h]

/-- A cleared link is emptied, whatever its state and phase become (R18, R21). -/
theorem emptiedLink_cleared (x : Link) (st : LinkState) (ph : Phase) :
    EmptiedLink x { x.cleared with state := st, phase := ph } :=
  ⟨rfl, rfl, rfl, rfl, rfl, rfl, rfl, rfl, rfl, rfl, rfl, rfl, rfl, rfl, rfl, rfl, rfl, rfl, rfl, rfl, rfl, rfl⟩

@[simp] theorem State.link_setPhase (l : LinkId) (ph : Phase) (s : State) :
    (s.setPhase l ph).link l = { s.link l with phase := ph } := by simp [State.setPhase]

@[simp] theorem State.port_setPhase (l : LinkId) (ph : Phase) (s : State) (q : PortId) :
    (s.setPhase l ph).port q = s.port q := by simp [State.setPhase]

/-! ### The timers (R16, R17) -/

/-- The part with its tick counter at `d`. -/
def State.setTick (d : Tick) (s : State) : State := { s with tick := d }

@[simp] theorem State.tick_setTick (d : Tick) (s : State) : (s.setTick d).tick = d := rfl

@[simp] theorem State.link_setTick (d : Tick) (s : State) (l : LinkId) : (s.setTick d).link l = s.link l := by
  cases l <;> rfl

@[simp] theorem State.port_setTick (d : Tick) (s : State) (q : PortId) : (s.setTick d).port q = s.port q := by
  cases q <;> rfl

/-- A deadline is reached when it falls before the next house sample, or has passed already. -/
def State.reaches (d : Tick) (s : State) : Prop := (d - s.tick).toNat ≤ s.runLimit ∨ 2147483648 ≤ (d - s.tick).toNat

/-- The tick at which a reached deadline's expiry is taken: its own, or the present one when it is taken late. -/
def State.expiryTick (d : Tick) (s : State) : Tick := if (d - s.tick).toNat ≤ s.runLimit then d else s.tick

theorem State.reach_of_reaches {d : Tick} {s : State} (h : s.reaches d) :
    s.reach d = some (s.setTick (s.expiryTick d)) := by
  unfold State.reach State.expiryTick
  dsimp only
  split
  · rfl
  · rename_i hn
    rw [if_pos (h.resolve_left hn)]
    rfl

theorem State.reach_of_not_reaches {d : Tick} {s : State} (h : ¬ s.reaches d) : s.reach d = none := by
  obtain ⟨hn, hp⟩ := not_or.mp h
  unfold State.reach
  dsimp only
  rw [if_neg hn, if_neg hp]

/-- GAP_TIMER_EXPIRY once an open block end that lies before the deadline is closed (log 4). -/
def State.gapExpiry (l : LinkId) (s : State) : State :=
  match (s.link l).gapDeadline with
  | none => s
  | some d =>
    match s.reach d with
    | none => s
    | some t => t.expireGap l d

theorem execGapTimerExpiry_eq (l : LinkId) (s : State) :
    execGapTimerExpiry l s = .next ((s.closeBefore (s.link l).gapDeadline).gapExpiry l) := rfl

theorem State.gapExpiry_stopped {l : LinkId} {s : State} (h : (s.link l).gapDeadline = none) : s.gapExpiry l = s := by
  simp [State.gapExpiry, h]

theorem State.gapExpiry_ahead {l : LinkId} {s : State} {d : Tick} (h : (s.link l).gapDeadline = some d)
    (hr : ¬ s.reaches d) : s.gapExpiry l = s := by
  simp [State.gapExpiry, h, State.reach_of_not_reaches hr]

theorem State.gapExpiry_reached {l : LinkId} {s : State} {d : Tick} (h : (s.link l).gapDeadline = some d)
    (hr : s.reaches d) : s.gapExpiry l = (s.setTick (s.expiryTick d)).expireGap l d := by
  simp [State.gapExpiry, h, State.reach_of_reaches hr]

/-- HOLDOVER_TIMER_EXPIRY once an open block end that lies before the deadline is closed (log 4). -/
def State.holdExpiry (l : LinkId) (s : State) : State :=
  match (s.link l).holdDeadline with
  | none => s
  | some d =>
    match s.reach d with
    | none => s
    | some t => t.expireHoldover l

theorem execHoldoverTimerExpiry_eq (l : LinkId) (s : State) :
    execHoldoverTimerExpiry l s = .next ((s.closeBefore (s.link l).holdDeadline).holdExpiry l) := rfl

theorem State.holdExpiry_stopped {l : LinkId} {s : State} (h : (s.link l).holdDeadline = none) :
    s.holdExpiry l = s := by
  simp [State.holdExpiry, h]

theorem State.holdExpiry_ahead {l : LinkId} {s : State} {d : Tick} (h : (s.link l).holdDeadline = some d)
    (hr : ¬ s.reaches d) : s.holdExpiry l = s := by
  simp [State.holdExpiry, h, State.reach_of_not_reaches hr]

theorem State.holdExpiry_reached {l : LinkId} {s : State} {d : Tick} (h : (s.link l).holdDeadline = some d)
    (hr : s.reaches d) : s.holdExpiry l = (s.setTick (s.expiryTick d)).expireHoldover l := by
  simp [State.holdExpiry, h, State.reach_of_reaches hr]

/-- The gap timer at its deadline on a LOCKED link: HOLDOVER, with the holdover timer set (R16). -/
theorem State.expireGap_locked {l : LinkId} {s : State} (d : Tick) (h : (s.link l).state = .locked) :
    s.expireGap l d =
      (s.onLink l fun x => { x with gapDeadline := none, holdDeadline := some (d + 786432) }).setLinkState
        l .holdover := by
  simp [State.expireGap, h]

theorem State.expireGap_acquire {l : LinkId} {s : State} (d : Tick) (h : (s.link l).state = .acquire) :
    s.expireGap l d = s.enterSearch l := by
  simp [State.expireGap, h]

theorem State.expireGap_other {l : LinkId} {s : State} (d : Tick) (hl : (s.link l).state ≠ .locked)
    (ha : (s.link l).state ≠ .acquire) : s.expireGap l d = s := by
  unfold State.expireGap
  split
  · contradiction
  · contradiction
  · rfl

@[simp] theorem State.tick_setLinkState (l : LinkId) (st : LinkState) (s : State) :
    (s.setLinkState l st).tick = s.tick := by
  unfold State.setLinkState
  split <;> simp

@[simp] theorem State.tick_enterSearch (l : LinkId) (s : State) : (s.enterSearch l).tick = s.tick := by
  simp [State.enterSearch]

/-- A late or timely entry into SEARCH raises LINK_STATE at every port, whatever tick it is taken at. -/
theorem State.raisedAtAll_enterSearch_setTick {l : LinkId} {s : State} (d : Tick) (h : (s.link l).state ≠ .search) :
    RaisedAtAll .linkState s ((s.setTick d).enterSearch l) := fun q => by
  rw [State.raisedAtAll_enterSearch (by simpa using h) q, State.port_setTick]

/-- Settles O24: the deadline that is reached moves the tick (`State.reach_of_reaches`), and the expiry then goes by the
link's state. -/
theorem gapTimerExpires : Obligations.GapTimerExpires := by
  unfold Obligations.GapTimerExpires
  intro l s₀
  refine ⟨_, execGapTimerExpiry_eq l s₀, State.closeBefore_closed, ?_⟩
  generalize s₀.closeBefore (s₀.link l).gapDeadline = s
  cases hd : (s.link l).gapDeadline with
  | none => exact State.gapExpiry_stopped hd
  | some d =>
    by_cases hr : s.reaches d
    case neg => exact (if_neg hr).mpr (State.gapExpiry_ahead hd hr)
    case pos =>
      refine (if_pos hr).mpr ?_
      rw [State.gapExpiry_reached hd hr]
      by_cases hlocked : (s.link l).state = .locked
      case pos =>
        rw [State.expireGap_locked d (by simpa using hlocked), if_pos hlocked]
        exact ⟨by simp; rfl, by simp, fun q => by simp [State.port_setLinkState, hlocked]⟩
      case neg =>
        rw [if_neg hlocked]
        by_cases hacquire : (s.link l).state = .acquire
        case pos =>
          rw [State.expireGap_acquire d (by simpa using hacquire), if_pos hacquire, State.link_enterSearch,
            State.link_setTick]
          exact ⟨by simp; rfl, rfl, rfl, emptiedLink_cleared _ _ _,
            State.raisedAtAll_enterSearch_setTick _ (by simp [hacquire])⟩
        case neg =>
          rw [State.expireGap_other d (by simpa using hlocked) (by simpa using hacquire), if_neg hacquire]
          exact ⟨rfl, rfl⟩

/-- Settles O25, as O24. -/
theorem holdoverTimerExpires : Obligations.HoldoverTimerExpires := by
  unfold Obligations.HoldoverTimerExpires
  intro l s₀
  refine ⟨_, execHoldoverTimerExpiry_eq l s₀, State.closeBefore_closed, ?_⟩
  generalize s₀.closeBefore (s₀.link l).holdDeadline = s
  cases hd : (s.link l).holdDeadline with
  | none => exact State.holdExpiry_stopped hd
  | some d =>
    by_cases hr : s.reaches d
    case neg => exact (if_neg hr).mpr (State.holdExpiry_ahead hd hr)
    case pos =>
      refine (if_pos hr).mpr ?_
      rw [State.holdExpiry_reached hd hr]
      by_cases hhold : (s.link l).state = .holdover
      case pos =>
        rw [State.expireHoldover, if_pos (by simpa using hhold), if_pos hhold, State.link_enterSearch,
          State.link_setTick]
        exact ⟨by simp; rfl, rfl, rfl, rfl, emptiedLink_cleared _ _ _,
          State.raisedAtAll_enterSearch_setTick _ (by simp [hhold])⟩
      case neg =>
        rw [State.expireHoldover, if_neg (by simpa using hhold), if_neg hhold]
        exact ⟨rfl, rfl⟩

end Sys2Proof.Machine
end

section
/-! SUPPORT. STARTs (O19), the frame of the four feed commands (O26) and the link commands (O34). -/

namespace Sys2Proof.Machine

/-! ### The passing of time (log 2, log 4) -/

/-- A closed block end stays closed. -/
theorem State.blockEndOpen_closeBlockEnd (s : State) : s.closeBlockEnd.blockEndOpen = false := by
  unfold State.closeBlockEnd
  split
  · dsimp only
    split
    · rfl
    · simp_all
  · simp_all

/-- Ticks that close no block end move the tick counter alone. -/
theorem State.passTicks_quiet {ticks : Nat} {s : State} (h : s.blockEndOpen = false ∨ ticks = 0) :
    s.passTicks ticks = s.setTick (s.tick + BitVec.ofNat 32 (min ticks s.runLimit)) := by
  by_cases hm : min ticks s.runLimit = 0
  · rw [State.passTicks_of_stopped hm, hm, BitVec.add_zero]
    rfl
  · have ho : s.blockEndOpen = false := h.resolve_right fun h0 => hm (by rw [h0, Nat.zero_min])
    rw [State.passTicks_of_passing hm, State.closeBlockEnd_closed ho]
    rfl

/-- Ticks that can pass at all close an open block end first, and then pass as from a closed one (log 4). -/
theorem State.passTicks_closes {ticks : Nat} {s : State} (h : min ticks s.runLimit ≠ 0) :
    s.passTicks ticks = s.closeBlockEnd.passTicks ticks := by
  rw [State.passTicks_of_passing h, State.passTicks_quiet (Or.inl s.blockEndOpen_closeBlockEnd)]
  rfl

theorem State.runLimit_of_ticking {s : State} (h : s.ticking = true) :
    s.runLimit = if s.samplesDone < 32 then 511 - s.tick.toNat % 512 else 0 := by
  simp [State.runLimit, State.tickOffset, h]

theorem State.runLimit_before_run {s : State} (h : s.startup ≠ .run) :
    s.runLimit = if s.startup = .loading ∧ s.samplesDone < 32 then 511 - s.tick.toNat % 512 else 0 := by
  simp [State.runLimit, State.tickOffset, State.ticking, h]

/-! ### START_SYMBOL (R1, R5) -/

@[simp] theorem State.startup_setTick (d : Tick) (s : State) : (s.setTick d).startup = s.startup := rfl

/-- A START after its ticks have passed, by the receiver's phase. -/
def State.start (l : LinkId) (s : State) : State :=
  match (s.link l).phase with
  | .off => s
  | .hunt => s.setPhase l (.assemble s.tick [])
  | .assemble _ _ => (s.dropMalformed l).setPhase l (.assemble s.tick [])

theorem execStartSymbol_run {l : LinkId} {ticks : Nat} {s : State} (h : (s.passTicks ticks).startup = .run) :
    execStartSymbol l ticks s = .next ((s.passTicks ticks).start l) := by
  unfold execStartSymbol State.start
  exact congrArg _ (if_pos h)

theorem State.start_off {l : LinkId} {s : State} (h : (s.link l).phase = .off) : s.start l = s := by
  simp [State.start, h]

theorem State.start_hunt {l : LinkId} {s : State} (h : (s.link l).phase = .hunt) :
    s.start l = s.setPhase l (.assemble s.tick []) := by
  simp [State.start, h]

theorem State.start_assemble {l : LinkId} {s : State} {capture : Tick} {got : List Byte}
    (h : (s.link l).phase = .assemble capture got) :
    s.start l = (s.dropMalformed l).setPhase l (.assemble s.tick []) := by
  simp [State.start, h]

theorem execStartSymbol_before_run {l : LinkId} {ticks : Nat} {s : State} (h : (s.passTicks ticks).startup ≠ .run) :
    execStartSymbol l ticks s = .next (s.passTicks ticks) := by
  simp [execStartSymbol, h]

/-- A malformed block dropped: counted, the receiver in HUNT (R7). -/
def Link.malformed (x : Link) : Link :=
  { x with phase := .hunt, counters := { x.counters with malformed := bump x.counters.malformed } }

theorem State.dropMalformed_acquire {l : LinkId} {s : State} (h : (s.link l).state = .acquire) :
    s.dropMalformed l = (s.onLink l Link.malformed).enterSearch l := by
  unfold State.dropMalformed
  exact if_pos (by simpa using h)

theorem State.dropMalformed_other {l : LinkId} {s : State} (h : (s.link l).state ≠ .acquire) :
    s.dropMalformed l = s.onLink l Link.malformed := by
  unfold State.dropMalformed
  exact if_neg (by simpa using h)

/-- A malformed block takes an ACQUIRE link to SEARCH: emptied, with LINK_STATE at every port (R7, R18). -/
theorem State.dropMalformed_acquire_effect {l : LinkId} {s : State} (h : (s.link l).state = .acquire) (ph : Phase) :
    let t := (s.dropMalformed l).setPhase l ph
    (t.link l).phase = ph ∧ (t.link l).counters = (s.link l).malformed.counters ∧ (t.link l).state = .search ∧
      EmptiedLink (s.link l) (t.link l) ∧ RaisedAtAll .linkState s t := by
  intro t
  have hlink : t.link l = { (s.link l).malformed.cleared with state := .search, phase := ph } := by
    simp [t, State.dropMalformed_acquire h]
  rw [hlink]
  refine ⟨rfl, rfl, rfl, emptiedLink_cleared _ _ _, fun q => ?_⟩
  simp [t, State.dropMalformed_acquire h, State.port_enterSearch, Link.malformed, h]

/-- Two changes of one link in a row are one. -/
theorem State.onLink_onLink (l : LinkId) (f g : Link → Link) (s : State) :
    (s.onLink l f).onLink l g = s.onLink l (g ∘ f) := by cases l <;> rfl

/-- Settles O19: the ticks that pass move the tick counter alone (`State.passTicks_quiet`), and the START then goes by the
receiver's phase (`State.start`). -/
theorem startSymbolBeginsABlock : Obligations.StartSymbolBeginsABlock := by
  unfold Obligations.StartSymbolBeginsABlock
  refine ⟨?running, ?before, ?closing⟩
  case running =>
    intro l ticks s hs hq
    have hlimit := State.runLimit_of_ticking (s := s) (by simp [State.ticking, hs])
    have hexec : exec (.startSymbol l ticks) s =
        .next ((s.setTick (s.tick + BitVec.ofNat 32 (min ticks s.runLimit))).start l) := by
      rw [exec_startSymbol, ← State.passTicks_quiet hq, execStartSymbol_run]
      rw [State.passTicks_quiet hq, State.startup_setTick, hs]
    refine ⟨_, hexec, ?_⟩
    rw [← hlimit]
    generalize s.tick + BitVec.ofNat 32 (min ticks s.runLimit) = now
    cases hph : (s.link l).phase with
    | off =>
      rw [State.start_off (by simpa using hph)]
      exact ⟨rfl, rfl⟩
    | hunt =>
      rw [State.start_hunt (by simpa using hph)]
      have htick : ((s.setTick now).setPhase l (.assemble now [])).tick = now := by simp [State.setPhase]
      exact ⟨htick, by rw [State.tick_setTick, htick]; cases l <;> rfl⟩
    | assemble capture got =>
      rw [State.start_assemble (by simpa using hph), State.tick_setTick]
      by_cases hacq : (s.link l).state = .acquire
      case pos =>
        obtain ⟨hphase, hcounters, hstate, hempty, hraised⟩ :=
          State.dropMalformed_acquire_effect (s := s.setTick now) (by simpa using hacq) (.assemble now [])
        rw [State.link_setTick] at hcounters hempty
        have htick : (((s.setTick now).dropMalformed l).setPhase l (.assemble now [])).tick = now := by
          simp [State.setPhase, State.dropMalformed_acquire, hacq]
        exact ⟨htick, by rw [htick, hphase], hcounters,
          (if_pos hacq).mpr ⟨hstate, hempty, fun q => by rw [hraised q, State.port_setTick]⟩⟩
      case neg =>
        rw [State.dropMalformed_other (by simpa using hacq), State.setPhase, State.onLink_onLink]
        have htick (f : Link → Link) : ((s.setTick now).onLink l f).tick = now := by simp
        refine ⟨htick _, by simp, by simp; rfl, (if_neg hacq).mpr ?_⟩
        rw [htick]
        cases l <;> rfl
  case before =>
    intro l ticks s hs hq
    rw [exec_startSymbol, execStartSymbol_before_run, State.passTicks_quiet hq, State.runLimit_before_run hs]
    · rfl
    · rwa [State.passTicks_quiet hq]
  case closing =>
    intro l ticks s ht hd ho hpos
    have hmin : min ticks s.runLimit ≠ 0 := by
      rw [State.runLimit_of_ticking ht, if_pos hd]
      omega
    rw [exec_startSymbol, exec_startSymbol, execStartSymbol, execStartSymbol, State.passTicks_closes hmin]

/-! ### What the feed commands leave alone (R7, R18, R159) -/

/-- A valid block counted (R10). -/
def Link.countValid (x : Link) : Link := { x with counters := { x.counters with valid := bump x.counters.valid } }

/-- A HOLDOVER link that a block returns to LOCKED, without its holdover timer (R14); a LOCKED link stays. -/
def State.resume (l : LinkId) (s : State) : State :=
  if (s.link l).state = .holdover then
    (s.setLinkState l .locked).onLink l fun x => { x with holdDeadline := none }
  else s

/-- What a link's state makes of a valid block, of step `d`, that is counted (R10 to R14). -/
def State.takeValid (l : LinkId) (b : FeedBlock) (capture : Tick) (d : Nat) (s : State) : State :=
  match (s.link l).state with
  | .disabled => s
  | .search => (s.setLinkState l .acquire).beginRun l b capture
  | .acquire => if d = 1 then s.extendRun l b capture else (s.onLink l Link.clearRun).beginRun l b capture
  | .locked => if 1 ≤ d ∧ d ≤ 3 then (s.resume l).takeLocked l b capture d else s.enterSearch l
  | .holdover => if 1 ≤ d ∧ d ≤ 3 then (s.resume l).takeLocked l b capture d else s.enterSearch l

theorem State.acceptBlock_eq (l : LinkId) (b : FeedBlock) (capture : Tick) (s : State) :
    s.acceptBlock l b capture =
      (s.onLink l Link.countValid).takeValid l b capture ((s.link l).seqStep b.header.seq) := by
  have hlink : (s.onLink l Link.countValid).link l = (s.link l).countValid := State.link_onLink_self ..
  unfold State.acceptBlock State.takeValid State.resume
  dsimp only
  rw [show (fun x : Link => { x with counters := { x.counters with valid := bump x.counters.valid } }) =
    Link.countValid from rfl]
  split <;> simp_all

namespace ActsOnLink

variable {l : LinkId} {N : Notice → Prop} {s : State}

theorem start (h : N .linkState) : ActsOnLink l N s (s.start l) := by
  unfold State.start
  split
  · exact refl ..
  · exact setPhase _
  · exact (dropMalformed h).trans (setPhase _)

theorem expireGap (d : Tick) (h : N .linkState) : ActsOnLink l N s (s.expireGap l d) := by
  unfold State.expireGap
  split
  · exact (onLink _).trans (setLinkState _ h)
  · exact enterSearch h
  · exact refl ..

theorem expireHoldover (h : N .linkState) : ActsOnLink l N s (s.expireHoldover l) := by
  unfold State.expireHoldover
  split
  · exact enterSearch h
  · exact refl ..

theorem gapExpiry (h : N .linkState) : ActsOnLink l N s (s.gapExpiry l) := by
  cases hd : (s.link l).gapDeadline with
  | none => rw [State.gapExpiry_stopped hd]; exact refl ..
  | some d =>
    by_cases hr : s.reaches d
    · rw [State.gapExpiry_reached hd hr]; exact (setTick _).trans (expireGap d h)
    · rw [State.gapExpiry_ahead hd hr]; exact refl ..

theorem holdExpiry (h : N .linkState) : ActsOnLink l N s (s.holdExpiry l) := by
  cases hd : (s.link l).holdDeadline with
  | none => rw [State.holdExpiry_stopped hd]; exact refl ..
  | some d =>
    by_cases hr : s.reaches d
    · rw [State.holdExpiry_reached hd hr]; exact (setTick _).trans (expireHoldover h)
    · rw [State.holdExpiry_ahead hd hr]; exact refl ..

theorem resume (h : N .linkState) : ActsOnLink l N s (s.resume l) := by
  unfold State.resume
  split
  · exact (setLinkState _ h).trans (onLink _)
  · exact refl ..

/-- Whatever its link's state makes of a valid block, it acts on that link. -/
theorem takeValid (b : FeedBlock) (capture : Tick) (d : Nat) :
    ActsOnLink l (fun _ => True) s (s.takeValid l b capture d) := by
  unfold State.takeValid
  split
  · exact refl ..
  · exact (setLinkState _ trivial).trans (beginRun b capture trivial trivial)
  · split
    · exact extendRun b capture trivial trivial trivial
    · exact (onLink _).trans (beginRun b capture trivial trivial)
  all_goals
    split
    · exact (resume trivial).trans (takeLocked b capture _ trivial trivial trivial)
    · exact enterSearch trivial

end ActsOnLink

/-- A deadline at the present tick does not lie ahead of an open block end. -/
theorem State.closeBefore_now {d : Option Tick} {s : State} (h : s.blockEndOpen = false ∨ d = some s.tick) :
    s.closeBefore d = s := by
  rcases h with ho | rfl
  · exact State.closeBefore_closed ho
  · simp [State.closeBefore]

theorem exec_startSymbol_acts {l : LinkId} {ticks : Nat} {s t : State} (hq : s.blockEndOpen = false ∨ ticks = 0)
    (h : exec (.startSymbol l ticks) s = .next t) : ActsOnLink l (· = .linkState) s t := by
  rw [exec_startSymbol] at h
  have hpass : ActsOnLink l (· = .linkState) s (s.passTicks ticks) := by
    rw [State.passTicks_quiet hq]
    exact .setTick _
  by_cases hr : (s.passTicks ticks).startup = .run
  · rw [execStartSymbol_run hr] at h
    cases h
    exact hpass.trans (.start rfl)
  · rw [execStartSymbol_before_run hr] at h
    cases h
    exact hpass

theorem exec_feedBlock_acts {l : LinkId} {symbols : List Symbol} {s t : State}
    (h : exec (.feedBlock l symbols) s = .next t) : ActsOnLink l (fun _ => True) s t := by
  rw [exec_feedBlock, execFeedBlock] at h
  injection h with h
  subst h
  split
  · split
    · exact .refl ..
    · exact .refl ..
    · split
      · exact .setPhase _
      · exact .dropMalformed trivial
      · rw [State.acceptBlock_eq]
        exact ((ActsOnLink.setPhase _).trans (.onLink _)).trans (.takeValid _ _ _)
  · exact .refl ..

theorem exec_gapTimerExpiry_acts {l : LinkId} {s t : State}
    (hq : s.blockEndOpen = false ∨ (s.link l).gapDeadline = some s.tick)
    (h : exec (.gapTimerExpiry l) s = .next t) : ActsOnLink l (· = .linkState) s t := by
  rw [exec_gapTimerExpiry, execGapTimerExpiry_eq, State.closeBefore_now hq] at h
  cases h
  exact .gapExpiry rfl

theorem exec_holdoverTimerExpiry_acts {l : LinkId} {s t : State}
    (hq : s.blockEndOpen = false ∨ (s.link l).holdDeadline = some s.tick)
    (h : exec (.holdoverTimerExpiry l) s = .next t) : ActsOnLink l (· = .linkState) s t := by
  rw [exec_holdoverTimerExpiry, execHoldoverTimerExpiry_eq, State.closeBefore_now hq] at h
  cases h
  exact .holdExpiry rfl

/-- Settles O26: each of the four commands acts on its link alone (`ActsOnLink`). -/
theorem feedCommandsFrame : Obligations.FeedCommandsFrame := by
  unfold Obligations.FeedCommandsFrame
  intro l c s t hc hexec
  have hquiet (h : ActsOnLink l (· = .linkState) s t) := And.intro h.frame (And.intro h.others (And.intro h.ports
    (Or.inr (a := ∃ symbols, c = .feedBlock l symbols) h.raised)))
  rcases hc with ⟨ticks, rfl, hq⟩ | ⟨symbols, rfl⟩ | ⟨rfl, hq⟩ | ⟨rfl, hq⟩
  · exact hquiet (exec_startSymbol_acts hq hexec)
  · have h := exec_feedBlock_acts hexec
    exact ⟨h.frame, h.others, h.ports, Or.inl ⟨symbols, rfl⟩⟩
  · exact hquiet (exec_gapTimerExpiry_acts hq hexec)
  · exact hquiet (exec_holdoverTimerExpiry_acts hq hexec)

/-! ### The link commands (R9, R18, R21, R22) -/

/-- An answer given after LINK_STATE was raised at every port is an answer with LINK_STATE raised. -/
theorem State.answeredRaising {s t : State} (p : PortId) (code : Byte) (h : RaisedAtAll .linkState s t) :
    AnsweredRaising .linkState p .ok code [] s (t.answer p code .ok []) :=
  ⟨by rw [State.port_answer, if_pos rfl, h p]; rfl, fun q hq => by rw [State.port_answer, if_neg hq, h q]⟩

/-- An answer given with the ports as they were is an answer and nothing else. -/
theorem State.answered {s t : State} (p : PortId) (code : Byte) (h : ∀ q, t.port q = s.port q) :
    Answered p .ok code [] s (t.answer p code .ok []) :=
  ⟨by rw [State.port_answer, if_pos rfl, h p]; rfl, fun q hq => by rw [State.port_answer, if_neg hq, h q]⟩

/-- What acts on one link and then answers changes that link and the ports alone. -/
theorem ActsOnLink.answer_frame {l : LinkId} {N : Notice → Prop} {s t : State} (h : ActsOnLink l N s t)
    (htick : t.tick = s.tick) (p : PortId) (code : Byte) :
    let u := t.answer p code .ok []
    u = (s.withPortsOf u).withLinksOf u ∧ ∀ k, k ≠ l → u.link k = s.link k := by
  intro u
  refine ⟨?_, fun k hk => by rw [State.link_answer, h.others k hk]⟩
  have hframe : t = (s.withPortsOf t).withLinksOf t := by
    rw [h.frame, htick]
    rfl
  have hu : u = (t.withPortsOf u).withLinksOf u := by cases p <;> rfl
  exact hu.trans (by rw [hframe]; rfl)

/-- Settles O34: each command is one change of its link, the raising of LINK_STATE if the state changes, and the answer. -/
theorem linkCommandsRun : Obligations.LinkCommandsRun := by
  unfold Obligations.LinkCommandsRun
  refine ⟨?restart, ?disable, ?enable⟩
  case restart =>
    intro p l s ht
    refine ⟨takeLinkRestart p l s, congrArg _ (State.present_takable ht), ?_⟩
    unfold takeLinkRestart
    by_cases hst : (s.link l).state = .search
    case pos =>
      rw [if_pos hst]
      obtain ⟨hframe, hothers⟩ := (ActsOnLink.setPhase (N := fun _ => True) (s := s) (l := l) .hunt).answer_frame
        (by simp [State.setPhase]) p 0x20
      refine ⟨hframe, hothers, by simp, (if_pos hst).mpr ⟨by simp, State.answered _ _ fun q => by simp⟩⟩
    case neg =>
      rw [if_neg hst]
      obtain ⟨hframe, hothers⟩ := ((ActsOnLink.enterSearch (N := fun _ => True) (s := s) (l := l) trivial).trans
        (.setPhase .hunt)).answer_frame (by simp [State.setPhase]) p 0x20
      refine ⟨hframe, hothers, by simp [Link.cleared], (if_neg hst).mpr ?_⟩
      refine ⟨by simp, by simp, ?_, State.answeredRaising _ _ fun q => ?_⟩
      · simpa using emptiedLink_cleared (s.link l) .search .hunt
      · simpa using State.raisedAtAll_enterSearch hst q
  case disable =>
    intro p l s ht
    refine ⟨takeLinkDisable p l s, congrArg _ (State.present_takable ht), ?_⟩
    unfold takeLinkDisable
    by_cases hst : (s.link l).state = .disabled
    case pos =>
      rw [if_pos hst]
      obtain ⟨hframe, hothers⟩ := (ActsOnLink.refl l (fun _ => True) s).answer_frame rfl p 0x21
      exact ⟨hframe, hothers, by simp, (if_pos hst).mpr ⟨by simp, State.answered _ _ fun q => rfl⟩⟩
    case neg =>
      rw [if_neg hst]
      obtain ⟨hframe, hothers⟩ := (((ActsOnLink.onLink (N := fun _ => True) (s := s) (l := l) Link.cleared).trans
        (.setPhase .off)).trans (.setLinkState .disabled trivial)).answer_frame (by simp [State.setPhase]) p 0x21
      refine ⟨hframe, hothers, by simp [Link.cleared], (if_neg hst).mpr ?_⟩
      refine ⟨by simp, by simp, ?_, State.answeredRaising _ _ fun q => ?_⟩
      · simpa using emptiedLink_cleared (s.link l) .disabled .off
      · simp [State.port_setLinkState, Link.cleared, hst]
  case enable =>
    intro p l s ht
    refine ⟨takeLinkEnable p l s, congrArg _ (State.present_takable ht), ?_⟩
    unfold takeLinkEnable
    by_cases hst : (s.link l).state = .disabled
    case pos =>
      rw [if_pos hst]
      obtain ⟨hframe, hothers⟩ := ((ActsOnLink.enterSearch (N := fun _ => True) (s := s) (l := l) trivial).trans
        (.setPhase .hunt)).answer_frame (by simp [State.setPhase]) p 0x22
      refine ⟨hframe, hothers, by simp [Link.cleared], (if_pos hst).mpr ?_⟩
      refine ⟨by simp, by simp, ?_, State.answeredRaising _ _ fun q => ?_⟩
      · simpa using emptiedLink_cleared (s.link l) .search .hunt
      · simpa using State.raisedAtAll_enterSearch (by simp [hst]) q
    case neg =>
      rw [if_neg hst]
      obtain ⟨hframe, hothers⟩ := (ActsOnLink.refl l (fun _ => True) s).answer_frame rfl p 0x22
      exact ⟨hframe, hothers, by simp, (if_neg hst).mpr ⟨by simp, State.answered _ _ fun q => rfl⟩⟩

end Sys2Proof.Machine
end

section
/-! SUPPORT. Handing a block on (R10): what is written, stamped, offered and recorded, at the link and at the ports. -/

namespace Sys2Proof.Machine

/-! ### Writing frames (R25) -/

@[simp] theorem length_writeFrames (ring : List (List Int)) (base : FrameIndex) (frames : List (List Int)) :
    (writeFrames ring base frames).length = ring.length := by
  induction frames generalizing ring base with
  | nil => rfl
  | cons f rest ih => rw [writeFrames, ih, List.length_set]

theorem writeFrames_append (ring : List (List Int)) (base : FrameIndex) (xs ys : List (List Int)) :
    writeFrames ring base (xs ++ ys) =
      writeFrames (writeFrames ring base xs) (base + BitVec.ofNat 32 xs.length) ys := by
  induction xs generalizing ring base with
  | nil => simp [writeFrames]
  | cons f rest ih =>
    rw [List.cons_append, writeFrames, writeFrames, ih]
    congr 1
    rw [List.length_cons, BitVec.add_assoc]
    congr 1
    apply BitVec.eq_of_toNat_eq
    simp
    omega

/-- The ring place of an index, counted from a base. -/
def place (base i : FrameIndex) : Nat := (i - base).toNat % 256

theorem mod_eq_iff_place (base i : FrameIndex) : base.toNat % 256 = i.toNat % 256 ↔ place base i = 0 := by
  unfold place
  bv_omega

theorem place_succ (base i : FrameIndex) : place (base + 1) i = (place base i + 255) % 256 := by
  unfold place
  bv_omega

/-- A run of at most 256 frames takes the ring places from its base on, and every other place stays. -/
theorem getD_writeFrames {ring : List (List Int)} (hr : ring.length = 256) (base i : FrameIndex)
    {frames : List (List Int)} (hf : frames.length ≤ 256) :
    (writeFrames ring base frames).getD (i.toNat % 256) [] =
      if place base i < frames.length then frames.getD (place base i) [] else ring.getD (i.toNat % 256) [] := by
  induction frames generalizing ring base with
  | nil => simp [writeFrames]
  | cons f rest ih =>
    have hlen : rest.length < 256 := by simpa using hf
    have hp : place base i < 256 := Nat.mod_lt _ (by decide)
    rw [writeFrames, ih (by simpa using hr) _ hlen.le, place_succ]
    by_cases h0 : place base i = 0
    · have hmod := (mod_eq_iff_place base i).mpr h0
      have hi : i.toNat % 256 < (ring.set (base.toNat % 256) f).length := by
        rw [List.length_set, hr]
        exact Nat.mod_lt _ (by decide)
      simp only [h0, List.length_cons, Nat.zero_lt_succ, if_true, List.getD_cons_zero]
      rw [if_neg (by omega), List.getD_eq_getElem _ _ hi]
      simp [hmod]
    · have hmod := mt (mod_eq_iff_place base i).mp h0
      have hpred : (place base i + 255) % 256 = place base i - 1 := by omega
      obtain ⟨k, hk⟩ := Nat.exists_eq_succ_of_ne_zero h0
      rw [hpred, hk]
      simp only [List.length_cons, Nat.succ_eq_add_one, Nat.add_sub_cancel, Nat.add_lt_add_iff_right,
        List.getD_cons_succ]
      congr 1
      simp [List.getD_eq_getElem?_getD, hmod]

/-- A block's 32 frames are written when the written count, the held count and the ring say so (R10, R25). -/
theorem blockWritten_of_ring {frames : List (List Int)} {x y : Link} (hw : y.written = x.written + 32)
    (hh : y.held = min 256 (x.held + 32)) (hr : y.ring = writeFrames x.ring x.written frames) :
    BlockWritten frames x y := by
  refine ⟨hw, hh, hr, fun hring hlen i => ?_⟩
  have h := getD_writeFrames hring x.written i (frames := frames) (by omega)
  rw [hlen] at h
  show y.ring.getD _ _ = _
  rw [hr]
  exact h

/-! ### Stamps (R27, R112) -/

/-- A stamp enters as `stampEnters` says. -/
theorem stampEnters_eq (l : LinkId) (x : Link) (first : FrameIndex) (pos : ShowPos) (transport : Transport)
    (tracks : Nat) :
    ((x.pushStamp l first pos transport tracks).stamps, (x.pushStamp l first pos transport tracks).contRef) =
      stampEnters l (x.stamps, x.contRef) (first, pos, transport, tracks) := by
  have hplays : ((asProg l).isSome && decide (transport = .play)) = decide (l ≠ .C ∧ transport = .play) := by
    cases l <;> simp [asProg]
  cases hc : x.contRef with
  | none => simp [Link.pushStamp, stampEnters, locateMark, keepLast, hc, hplays]
  | some r =>
    simp only [Link.pushStamp, stampEnters, locateMark, keepLast, hc, hplays]
    rfl

/-- The first stamp of an emptied queue is unmarked (R112). -/
theorem stampEnters_first (l : LinkId) (first : FrameIndex) (pos : ShowPos) (transport : Transport) (tracks : Nat) :
    (stampEnters l ([], none) (first, pos, transport, tracks)).1 = [⟨first, pos, transport, tracks, false⟩] := by
  simp [stampEnters]

/-! ### Records (R20, R78) -/

theorem bump_iterate {k : Nat} (hk : k ≤ 4294967295) (n : Nat) : bump^[n] k = min (k + n) 4294967295 := by
  induction n with
  | zero => simp [hk]
  | succ n ih =>
    rw [Function.iterate_succ_apply', ih, bump]
    simp only [Config.counterMax]
    omega

/-- A metadata queue after records were offered to it: those that find room join it; link C has none (R20). -/
def offeredQueue (l : LinkId) (tag : FrameIndex) (rs : List MetaRecord) (q : List Tagged) : List Tagged :=
  if l = .C then q else q ++ (rs.map (Tagged.mk tag)).take (64 - q.length)

/-- The counters after `n` records were offered to a queue with room for `room` (R20). -/
def LinkCounters.offered (l : LinkId) (n room : Nat) (k : LinkCounters) : LinkCounters :=
  if l = .C then { k with ignored := bump^[n] k.ignored } else { k with dropped := bump^[n - room] k.dropped }

/-- A link after records were offered to it. -/
def Link.offered (l : LinkId) (tag : FrameIndex) (rs : List MetaRecord) (x : Link) : Link :=
  { x with
    queue := offeredQueue l tag rs x.queue
    counters := x.counters.offered l rs.length (64 - x.queue.length) }

section
variable (l : LinkId) (n room : Nat) (k : LinkCounters)

@[simp] theorem LinkCounters.valid_offered : (k.offered l n room).valid = k.valid := by
  unfold LinkCounters.offered
  split <;> rfl

@[simp] theorem LinkCounters.concealed_offered : (k.offered l n room).concealed = k.concealed := by
  unfold LinkCounters.offered
  split <;> rfl

@[simp] theorem LinkCounters.slips_offered : (k.offered l n room).slips = k.slips := by
  unfold LinkCounters.offered
  split <;> rfl

@[simp] theorem LinkCounters.rateFaults_offered : (k.offered l n room).rateFaults = k.rateFaults := by
  unfold LinkCounters.offered
  split <;> rfl

end

/-- What offering makes of the dropped count depends on that count alone; so for the ignored count. -/
theorem LinkCounters.dropped_offered_congr {l : LinkId} {n room : Nat} {k k' : LinkCounters}
    (h : k.dropped = k'.dropped) : (k.offered l n room).dropped = (k'.offered l n room).dropped := by
  unfold LinkCounters.offered
  split <;> simp [h]

theorem LinkCounters.ignored_offered_congr {l : LinkId} {n room : Nat} {k k' : LinkCounters}
    (h : k.ignored = k'.ignored) : (k.offered l n room).ignored = (k'.offered l n room).ignored := by
  unfold LinkCounters.offered
  split <;> simp [h]

/-- Offering one record and then the rest is offering them all. -/
theorem Link.offered_cons (l : LinkId) (tag : FrameIndex) (r : MetaRecord) (rs : List MetaRecord) (x : Link) :
    x.offered l tag (r :: rs) = (x.offered l tag [r]).offered l tag rs := by
  by_cases hC : l = .C
  · simp [Link.offered, offeredQueue, LinkCounters.offered, hC]
  · by_cases hroom : x.queue.length < 64
    · have htake : 64 - x.queue.length = (64 - (x.queue.length + 1)) + 1 := by omega
      simp [Link.offered, offeredQueue, LinkCounters.offered, hC, htake]
    · have hfull : 64 - x.queue.length = 0 := by omega
      simp [Link.offered, offeredQueue, LinkCounters.offered, hC, hfull]

theorem State.link_offerRecord (l : LinkId) (tag : FrameIndex) (r : MetaRecord) (s : State) :
    (s.offerRecord l tag r).link l = (s.link l).offered l tag [r] := by
  unfold State.offerRecord
  split
  · rename_i hC
    obtain rfl : l = .C := by
      cases l with
      | A => cases hC
      | B => cases hC
      | C => rfl
    simp [Link.offered, offeredQueue, LinkCounters.offered]
  · rename_i hC
    have hl : l ≠ .C := by rintro rfl; cases hC
    split
    · rename_i hroom
      have htake : 64 - (s.link l).queue.length = (64 - ((s.link l).queue.length + 1)) + 1 := by omega
      simp [Link.offered, offeredQueue, LinkCounters.offered, hl, htake]
    · rename_i hroom
      have hfull : 64 - (s.link l).queue.length = 0 := by omega
      simp [Link.offered, offeredQueue, LinkCounters.offered, hl, hfull]

theorem Link.offered_nil (l : LinkId) (tag : FrameIndex) (x : Link) : x.offered l tag [] = x := by
  simp [Link.offered, offeredQueue, LinkCounters.offered]

/-- The records of a block reach the link as `Link.offered` says. -/
@[simp] theorem State.link_offerRecords (l : LinkId) (tag : FrameIndex) (rs : List MetaRecord) (s : State) :
    (s.offerRecords l tag rs).link l = (s.link l).offered l tag rs := by
  induction rs generalizing s with
  | nil => exact (Link.offered_nil ..).symm
  | cons r rs ih =>
    rw [Link.offered_cons, ← State.link_offerRecord, ← ih]
    rfl

/-- Records that find no room raise METADATA_DROP at the link's server port and at port C (R20). -/
theorem State.metadataDrop_offerRecords {l : LinkId} (hl : l ≠ .C) (tag : FrameIndex) {rs : List MetaRecord} {s : State}
    (h : 64 - (s.link l).queue.length < rs.length) :
    ((s.offerRecords l tag rs).port (serverPort l)).isRaised .metadataDrop = true ∧
      ((s.offerRecords l tag rs).port .C).isRaised .metadataDrop = true := by
  induction rs generalizing s with
  | nil => cases h
  | cons r rs ih =>
    by_cases hroom : (s.link l).queue.length < 64
    · refine ih ?_
      rw [State.link_offerRecord]
      simp only [Link.offered, offeredQueue, if_neg hl, List.length_append, List.length_take, List.length_map,
        List.length_cons, List.length_nil] at h ⊢
      omega
    · have hacts : ActsOnLink l (fun _ => True) (s.offerRecord l tag r) (s.offerRecords l tag (r :: rs)) :=
        .offerRecords tag rs trivial
      have hdrop : s.offerRecord l tag r =
          (s.onLink l fun x => { x with counters := { x.counters with dropped := bump x.counters.dropped } }).notifyServer
            l .metadataDrop := by
        cases l with
        | A => exact if_neg hroom
        | B => exact if_neg hroom
        | C => exact absurd rfl hl
      refine ⟨hacts.kept _ _ ?_, hacts.kept _ _ ?_⟩
      · rw [hdrop]
        cases l <;> simp [State.notifyServer, State.port_notify, serverPort]
      · rw [hdrop]
        simp [State.notifyServer, State.port_notify]

/-- Records are offered as R20 says when the queue and the two counters end as `Link.offered` has them and METADATA_DROP
stands where one was dropped. -/
theorem recordsOffered_of {l : LinkId} {tag : FrameIndex} {rs : List MetaRecord} {s t : State}
    (hq : (t.link l).queue = offeredQueue l tag rs (s.link l).queue)
    (hd : (t.link l).counters.dropped =
      ((s.link l).counters.offered l rs.length (64 - (s.link l).queue.length)).dropped)
    (hi : (t.link l).counters.ignored =
      ((s.link l).counters.offered l rs.length (64 - (s.link l).queue.length)).ignored)
    (hn : l ≠ .C → 64 - (s.link l).queue.length < rs.length →
      (t.port (serverPort l)).isRaised .metadataDrop = true ∧ (t.port .C).isRaised .metadataDrop = true) :
    RecordsOffered l tag rs s t := by
  unfold RecordsOffered
  by_cases hC : l = .C
  · simp only [offeredQueue, LinkCounters.offered, if_pos hC] at hq hd hi ⊢
    exact ⟨hq, hd, fun hle => hi.trans (bump_iterate hle _)⟩
  · simp only [offeredQueue, LinkCounters.offered, if_neg hC] at hq hd hi ⊢
    exact ⟨hq, hi, fun hle => hd.trans (bump_iterate hle _), hn hC⟩

/-! ### The status record (R19) -/

/-- A link's status record as a block's header and trailer leave it. -/
def Link.withStatus (b : FeedBlock) (x : Link) : Link :=
  { x with
    seq := b.header.seq, tracks := b.header.tracks, transport := b.header.transport, health := b.health, pull := b.pull }

@[simp] theorem State.link_recordStatus (l : LinkId) (b : FeedBlock) (s : State) :
    (s.recordStatus l b).link l = (s.link l).withStatus b := by
  unfold State.recordStatus
  dsimp only
  split <;> simp [Link.withStatus]

/-- SERVER_STATUS is raised at all three ports when health or pull change, and at none otherwise (R19). -/
theorem State.serverStatus_recordStatus (l : LinkId) (b : FeedBlock) (s : State) (q : PortId) :
    ((s.recordStatus l b).port q).isRaised .serverStatus =
      (decide ((s.link l).health ≠ b.health ∨ (s.link l).pull ≠ b.pull) || (s.port q).isRaised .serverStatus) := by
  unfold State.recordStatus
  dsimp only
  split
  · rename_i h
    simp [h.1, h.2]
  · rename_i h
    rw [not_and_or] at h
    simp [h]

/-! ### Steps 2 to 5 of R10 -/

/-- A link after a block was handed on with the given frames: its header and trailer in the status record, its frames and
stamp written, its records offered. -/
def Link.handedOn (l : LinkId) (b : FeedBlock) (frames : List (List Int)) (x : Link) : Link :=
  { x with
    seq := b.header.seq, tracks := b.header.tracks, transport := b.header.transport, health := b.health, pull := b.pull
    ring := writeFrames x.ring x.written frames
    written := x.written + 32
    held := min 256 (x.held + 32)
    stamps := (stampEnters l (x.stamps, x.contRef)
      (x.written, b.header.pos, b.header.transport, b.header.tracks)).1
    contRef := (stampEnters l (x.stamps, x.contRef)
      (x.written, b.header.pos, b.header.transport, b.header.tracks)).2
    queue := offeredQueue l x.written b.records x.queue
    counters := x.counters.offered l b.records.length (64 - x.queue.length) }

@[simp] theorem State.link_handOn (l : LinkId) (b : FeedBlock) (frames : List (List Int)) (s : State) :
    (s.handOn l b frames).link l = (s.link l).handedOn l b frames := by
  simp only [State.handOn, State.link_recordStatus, State.link_offerRecords, State.link_onLink_self, Link.handedOn,
    ← stampEnters_eq]
  rfl

theorem State.serverStatus_handOn (l : LinkId) (b : FeedBlock) (frames : List (List Int)) (s : State) (q : PortId) :
    ((s.handOn l b frames).port q).isRaised .serverStatus =
      (decide ((s.link l).health ≠ b.health ∨ (s.link l).pull ≠ b.pull) || (s.port q).isRaised .serverStatus) := by
  have hacts : ActsOnLink l (· ≠ .serverStatus) s
      ((s.onLink l (Link.writeBlock l frames b.header.pos b.header.transport b.header.tracks)).offerRecords l
        (s.link l).written b.records) := (ActsOnLink.onLink _).trans (.offerRecords _ _ (by decide))
  rw [State.handOn, State.serverStatus_recordStatus, hacts.raised q .serverStatus (by simp), State.link_offerRecords,
    State.link_onLink_self]
  rfl

theorem State.metadataDrop_handOn {l : LinkId} (hl : l ≠ .C) (b : FeedBlock) (frames : List (List Int)) {s : State}
    (h : 64 - (s.link l).queue.length < b.records.length) :
    ((s.handOn l b frames).port (serverPort l)).isRaised .metadataDrop = true ∧
      ((s.handOn l b frames).port .C).isRaised .metadataDrop = true := by
  have hdrop := State.metadataDrop_offerRecords hl (s.link l).written (rs := b.records)
    (s := s.onLink l (Link.writeBlock l frames b.header.pos b.header.transport b.header.tracks))
    (by simpa [Link.writeBlock, Link.pushStamp] using h)
  have hacts : ActsOnLink l (fun _ => True) _ (s.handOn l b frames) := .recordStatus b trivial
  exact ⟨hacts.kept _ _ hdrop.1, hacts.kept _ _ hdrop.2⟩

/-! ### A block handed on in the course of a command -/

section
variable {l : LinkId} {b : FeedBlock} {frames : List (List Int)} {N : Notice → Prop} {s u t : State}

/-- The status record of a command that hands a block on at `u`: nothing else in the command raises SERVER_STATUS. -/
theorem statusRecorded_of_handOn (hbefore : ActsOnLink l (· ≠ .serverStatus) s u)
    (hhealth : (u.link l).health = (s.link l).health) (hpull : (u.link l).pull = (s.link l).pull)
    (hafter : ActsOnLink l (· ≠ .serverStatus) (u.handOn l b frames) t)
    (hlink : t.link l = (t.link l).withStatus b) : StatusRecorded l b s t := by
  refine ⟨?_, ?_, ?_, ?_, ?_, fun q => ?_⟩
  case refine_6 =>
    rw [hafter.raised q _ (by simp), State.serverStatus_handOn, hbefore.raised q _ (by simp), hhealth, hpull]
  all_goals
    rw [hlink]
    rfl

/-- The records of a command that hands a block on at `u`; `k` are the counters that it finds there. -/
theorem recordsOffered_of_handOn {tag : FrameIndex} {k : LinkCounters} (hkd : k.dropped = (s.link l).counters.dropped)
    (hki : k.ignored = (s.link l).counters.ignored) (hqueue : (u.link l).queue = (s.link l).queue)
    (hafter : ActsOnLink l N (u.handOn l b frames) t)
    (hq : (t.link l).queue = offeredQueue l tag b.records (s.link l).queue)
    (hd : (t.link l).counters.dropped = (k.offered l b.records.length (64 - (s.link l).queue.length)).dropped)
    (hi : (t.link l).counters.ignored = (k.offered l b.records.length (64 - (s.link l).queue.length)).ignored) :
    RecordsOffered l tag b.records s t := by
  refine recordsOffered_of hq (hd.trans (LinkCounters.dropped_offered_congr hkd))
    (hi.trans (LinkCounters.ignored_offered_congr hki)) fun hl hroom => ?_
  have hdrop := State.metadataDrop_handOn hl b frames (s := u) (by rwa [hqueue])
  exact ⟨hafter.kept _ _ hdrop.1, hafter.kept _ _ hdrop.2⟩

end

end Sys2Proof.Machine
end

section
/-! SUPPORT. A valid block in SEARCH and in ACQUIRE (R11, R12): O20. -/

namespace Sys2Proof.Machine

/-! ### Valid blocks (R10) -/

/-- A link whose receiver has read a valid block to its end: in HUNT again, the block counted. -/
def Link.received (x : Link) : Link := { x.countValid with phase := .hunt }

/-- The part when link `l` has read a valid block to its end. -/
def State.received (l : LinkId) (s : State) : State := (s.setPhase l .hunt).onLink l Link.countValid

@[simp] theorem Link.state_received (x : Link) : x.received.state = x.state := rfl

@[simp] theorem State.link_received (l : LinkId) (s : State) : (s.received l).link l = (s.link l).received := by
  simp [State.received, Link.received, Link.countValid]

@[simp] theorem State.port_received (l : LinkId) (s : State) (q : PortId) : (s.received l).port q = s.port q := by
  simp [State.received]

theorem ActsOnLink.received {l : LinkId} {N : Notice → Prop} {s : State} : ActsOnLink l N s (s.received l) :=
  (setPhase _).trans (onLink _)

section
variable {l : LinkId} {symbols : List Symbol} {s : State} {capture : Tick} {got bytes : List Byte} {b : FeedBlock}

/-- FEED_BLOCK whose symbols end a valid block: it is taken by its link's state (R10). -/
theorem exec_feedBlock_valid (hrun : s.startup = .run) (hphase : (s.link l).phase = .assemble capture got)
    (hvalid : assemble l got symbols = (.ok b, bytes)) :
    exec (.feedBlock l symbols) s =
      .next ((s.received l).takeValid l b capture ((s.link l).seqStep b.header.seq)) := by
  have hstep : ((s.setPhase l .hunt).link l).seqStep b.header.seq = (s.link l).seqStep b.header.seq := by
    simp [Link.seqStep]
  rw [exec_feedBlock, execFeedBlock, if_pos hrun, hphase]
  simp only [hvalid, State.acceptBlock_eq, hstep]
  rfl

end

/-- A block's step is `n` exactly when its sequence number lies `n` above that of the last block written. -/
theorem Link.seqStep_eq_iff (x : Link) (seq : Seq) {n : Nat} (hn : n < 256) :
    x.seqStep seq = n ↔ seq = x.seq + BitVec.ofNat 8 n := by
  unfold Link.seqStep
  constructor
  · intro h
    have hs : seq - x.seq = BitVec.ofNat 8 n := BitVec.eq_of_toNat_eq (by simp [h, Nat.mod_eq_of_lt hn])
    rw [← hs]
    bv_omega
  · rintro rfl
    bv_omega

/-- A block is in step exactly when its step is 1. -/
theorem Link.seqStep_eq_one (x : Link) (seq : Seq) : x.seqStep seq = 1 ↔ seq = x.seq + 1 :=
  x.seqStep_eq_iff seq (n := 1) (by decide)

/-! ### The first block of a run (R11, R12) -/

/-- A link after the first block of a run. -/
def Link.begun (l : LinkId) (b : FeedBlock) (capture : Tick) (x : Link) : Link :=
  ((({ x with run := 1 } : Link).handedOn l b b.frames).pushCapture b.header.seq capture).restartGap capture

/-- The first block of a run moves the counters as the offering of its records does. -/
theorem Link.counters_begun (l : LinkId) (b : FeedBlock) (capture : Tick) (x : Link) :
    (x.begun l b capture).counters = x.counters.offered l b.records.length (64 - x.queue.length) := rfl

theorem Link.valid_begun (l : LinkId) (b : FeedBlock) (capture : Tick) (x : Link) :
    (x.begun l b capture).counters.valid = x.counters.valid := by rw [Link.counters_begun, LinkCounters.valid_offered]

theorem Link.rateFaults_begun (l : LinkId) (b : FeedBlock) (capture : Tick) (x : Link) :
    (x.begun l b capture).counters.rateFaults = x.counters.rateFaults := by
  rw [Link.counters_begun, LinkCounters.rateFaults_offered]

@[simp] theorem State.link_beginRun (l : LinkId) (b : FeedBlock) (capture : Tick) (s : State) :
    (s.beginRun l b capture).link l = (s.link l).begun l b capture := by
  simp [State.beginRun, Link.begun]

/-- The status record and the notices of a command that begins a run at `u`. -/
theorem statusRecorded_of_beginRun {l : LinkId} {b : FeedBlock} {capture : Tick} {s u : State}
    (h : ActsOnLink l (· ≠ .serverStatus) s u) (hhealth : (u.link l).health = (s.link l).health)
    (hpull : (u.link l).pull = (s.link l).pull) : StatusRecorded l b s (u.beginRun l b capture) :=
  statusRecorded_of_handOn (h.trans (.onLink _)) (by simpa using hhealth) (by simpa using hpull) (.onLink _)
    (by rw [State.link_beginRun]; rfl)

/-- The first part of O20. -/
theorem feedBlock_search {l : LinkId} {s : State} (b : FeedBlock) (capture : Tick)
    (hstate : (s.link l).state = .search) :
    let t := ((s.received l).setLinkState l .acquire).beginRun l b capture
    (t.link l).state = .acquire ∧ (t.link l).run = 1 ∧ (t.link l).phase = .hunt ∧
      BlockWritten b.frames (s.link l) (t.link l) ∧
      (t.link l).history = keepLast 9 ((s.link l).history ++ [⟨b.header.seq, capture⟩]) ∧
      (t.link l).gapDeadline = some (capture + 49152) ∧ (t.link l).readPos = (s.link l).readPos ∧
      StatusRecorded l b s t ∧
      (t.link l).counters.valid = min ((s.link l).counters.valid + 1) 4294967295 ∧
      ((t.link l).stamps, (t.link l).contRef) = stampEnters l ((s.link l).stamps, (s.link l).contRef)
        ((s.link l).written, b.header.pos, b.header.transport, b.header.tracks) ∧
      RecordsOffered l (s.link l).written b.records s t ∧
      ∀ q, (t.port q).isRaised .linkState = true := by
  intro t
  have hlink : t.link l = { (s.link l).received with state := .acquire }.begun l b capture := by simp [t]
  have hu : ActsOnLink l (· ≠ .serverStatus) s ((s.received l).setLinkState l .acquire) :=
    ActsOnLink.received.trans (.setLinkState _ (by decide))
  have hstatus : StatusRecorded l b s t :=
    statusRecorded_of_beginRun hu (by simp; rfl) (by simp; rfl)
  have hrecords : RecordsOffered l (s.link l).written b.records s t :=
    recordsOffered_of_handOn (u := ((s.received l).setLinkState l .acquire).onLink l fun x => { x with run := 1 })
      (k := (s.link l).countValid.counters) rfl rfl (by simp; rfl) (.onLink (N := fun _ => True) _) (by rw [hlink]; rfl)
      (by rw [hlink]; rfl) (by rw [hlink]; rfl)
  have hnotice (q : PortId) : (t.port q).isRaised .linkState = true := by
    refine (ActsOnLink.beginRun (N := fun _ => True) b capture trivial trivial).kept q _ ?_
    rw [State.port_setLinkState, if_neg (by simp [Link.received, Link.countValid, hstate]), Port.isRaised_raise]
  rw [hlink]
  generalize s.link l = x at hrecords ⊢
  cases x
  exact ⟨rfl, rfl, rfl, blockWritten_of_ring rfl rfl rfl, rfl, rfl, rfl, hstatus, Link.valid_begun .., rfl, hrecords,
    hnotice⟩

/-! ### The measurement (R30, R31) -/

/-- The interval that a block's capture ends: since the entry eight sequence numbers back, if the history has one. -/
def intervalOf (history : List HistEntry) (seq : Seq) (capture : Tick) : Option Nat :=
  (history.find? fun e => decide (e.seq = seq - 8)).map fun e => (capture - e.capture).toNat

section
variable {x : Link} {seq : Seq} {capture : Tick}

theorem Link.measure_eq : x.measure seq capture =
    match intervalOf x.history seq capture with
    | none => .paused
    | some d => if 129761 ≤ d ∧ d ≤ 132383 then .accepted (intervalOffset d) else .fault := by
  unfold Link.measure intervalOf
  cases x.history.find? fun e => decide (e.seq = seq - 8) <;> rfl

theorem Link.measure_none (h : intervalOf x.history seq capture = none) : x.measure seq capture = .paused := by
  rw [Link.measure_eq, h]

theorem Link.measure_accepted {d : Nat} (h : intervalOf x.history seq capture = some d)
    (hd : 129761 ≤ d ∧ d ≤ 132383) : x.measure seq capture = .accepted (intervalOffset d) := by
  rw [Link.measure_eq, h]
  exact if_pos hd

theorem Link.measure_fault {d : Nat} (h : intervalOf x.history seq capture = some d)
    (hd : ¬ (129761 ≤ d ∧ d ≤ 132383)) : x.measure seq capture = .fault := by
  rw [Link.measure_eq, h]
  exact if_neg hd

end

/-- At a fill of 128 the target is the measured offset, within the step's range (R33). -/
theorem targetOffset_at_128 (m : Int) : targetOffset m 128 = max (-167772) (min 167772 m) := by
  simp [targetOffset, clampInt, Config.stepBound]

/-! ### A block in step in ACQUIRE (R12) -/

/-- A link whose run is restarted by a block after a rate fault: its capture, stamp and records re-enter (R12; log 9). -/
def Link.reentered (l : LinkId) (b : FeedBlock) (capture : Tick) (x : Link) : Link :=
  let y := { ((x.clearRun.pushStamp l (x.written - 32) b.header.pos b.header.transport b.header.tracks).pushCapture
    b.header.seq capture) with run := 1 }
  if l = .C then y else y.offered l (x.written - 32) b.records

@[simp] theorem State.link_reenterRun (l : LinkId) (b : FeedBlock) (capture : Tick) (s : State) :
    (s.reenterRun l b capture).link l = (s.link l).reentered l b capture := by
  cases l <;> simp [State.reenterRun, Link.reentered, asProg]

section
variable {l : LinkId} {b : FeedBlock} {capture : Tick} {s : State}

theorem State.link_judgeRun_paused
    (h : ((s.link l).grown b.header.seq capture).measure b.header.seq capture = .paused) :
    (s.judgeRun l b capture).link l = (s.link l).grown b.header.seq capture := by
  simp [State.judgeRun, h, Link.applyMeasure]

theorem State.link_judgeRun_fault
    (h : ((s.link l).grown b.header.seq capture).measure b.header.seq capture = .fault) :
    (s.judgeRun l b capture).link l =
      (((s.link l).grown b.header.seq capture).applyMeasure .fault).reentered l b capture := by
  simp [State.judgeRun, h]

/-- With an accepted measurement the ninth block locks. -/
theorem State.judgeRun_accepted {offset : Int}
    (h : ((s.link l).grown b.header.seq capture).measure b.header.seq capture = .accepted offset) :
    s.judgeRun l b capture =
      let t := s.onLink l fun x => (x.grown b.header.seq capture).applyMeasure (.accepted offset)
      if 9 ≤ (s.link l).run + 1 then (t.onLink l Link.lock).setLinkState l .locked else t := by
  simp only [State.judgeRun, State.link_onLink_self, h, State.onLink_onLink]
  rfl

theorem State.link_judgeRun_accepted {offset : Int}
    (h : ((s.link l).grown b.header.seq capture).measure b.header.seq capture = .accepted offset)
    (hrun : ¬ 9 ≤ (s.link l).run + 1) :
    (s.judgeRun l b capture).link l =
      ((s.link l).grown b.header.seq capture).applyMeasure (.accepted offset) := by
  simp [State.judgeRun_accepted h, hrun]

/-- The accepted measurement of a ninth block locks the link (R12, R36). -/
theorem State.link_judgeRun_lock {offset : Int}
    (h : ((s.link l).grown b.header.seq capture).measure b.header.seq capture = .accepted offset)
    (hrun : 9 ≤ (s.link l).run + 1) :
    (s.judgeRun l b capture).link l =
      { (((s.link l).grown b.header.seq capture).applyMeasure (.accepted offset)).lock with state := .locked } := by
  simp [State.judgeRun_accepted h, hrun]

/-- A lock from ACQUIRE raises LINK_STATE at every port (R9). -/
theorem State.linkState_judgeRun_lock {offset : Int}
    (h : ((s.link l).grown b.header.seq capture).measure b.header.seq capture = .accepted offset)
    (hrun : 9 ≤ (s.link l).run + 1) (hstate : (s.link l).state = .acquire) (q : PortId) :
    ((s.judgeRun l b capture).port q).isRaised .linkState = true := by
  have hlock : (((s.link l).grown b.header.seq capture).applyMeasure (.accepted offset)).lock.state ≠ .locked := by
    rw [show (((s.link l).grown b.header.seq capture).applyMeasure (.accepted offset)).lock.state = .acquire from hstate]
    decide
  simp [State.judgeRun_accepted h, hrun, State.port_setLinkState, hlock]

end

/-- A restart by a rate fault, field by field, when the block has been written at `w`: the queue holds what it has room
for, and no counter moves but the two of records. -/
theorem Link.reentered_spec (l : LinkId) (b : FeedBlock) (capture : Tick) {x : Link} {w : FrameIndex}
    (hw : x.written = w + 32) :
    ∃ k : LinkCounters, k.valid = x.counters.valid ∧ k.rateFaults = x.counters.rateFaults ∧
      x.reentered l b capture =
        { x with
          run := 1, history := [⟨b.header.seq, capture⟩]
          stamps := [⟨w, b.header.pos, b.header.transport, b.header.tracks, false⟩]
          contRef := (stampEnters l ([], none) (w, b.header.pos, b.header.transport, b.header.tracks)).2
          queue := if l = .C then [] else (b.records.map (Tagged.mk w)).take 64
          counters := k } := by
  have hback : x.written - 32 = w := by rw [hw, BitVec.add_sub_cancel]
  have hstamp := stampEnters_eq l x.clearRun w b.header.pos b.header.transport b.header.tracks
  have hfirst := stampEnters_first l w b.header.pos b.header.transport b.header.tracks
  simp only [Link.clearRun] at hstamp
  by_cases hC : l = .C
  · refine ⟨x.counters, rfl, rfl, ?_⟩
    simp only [Link.reentered, if_pos hC, hback, ← hfirst, ← hstamp]
    rfl
  · refine ⟨x.counters.offered l b.records.length 64, LinkCounters.valid_offered .., LinkCounters.rateFaults_offered ..,
      ?_⟩
    simp only [Link.reentered, Link.offered, offeredQueue, if_neg hC, hback, ← hfirst, ← hstamp]
    rfl

/-- Settles O20: each outcome is read off the link that `State.link_beginRun` and the lemmas of `State.judgeRun` give,
and the notices off what follows the handing on. -/
theorem feedBlockBeginsARun : Obligations.FeedBlockBeginsARun := by
  unfold Obligations.FeedBlockBeginsARun
  refine ⟨?search, ?acquire⟩
  case search =>
    intro l symbols s capture got bytes b hrun hphase hvalid hstate
    have hexec := exec_feedBlock_valid hrun hphase hvalid
    rw [State.takeValid, show ((s.received l).link l).state = .search by simpa using hstate] at hexec
    exact ⟨_, hexec, feedBlock_search b capture hstate⟩
  case acquire =>
    intro l symbols s capture got bytes b hrun hphase hvalid hstate
    have hexec := exec_feedBlock_valid hrun hphase hvalid
    have hacq : ((s.received l).link l).state = .acquire := by simpa using hstate
    rw [State.takeValid, hacq] at hexec
    by_cases hstep : b.header.seq = (s.link l).seq + 1
    case neg =>
      dsimp only at hexec
      rw [if_neg (mt ((s.link l).seqStep_eq_one _).mp hstep)] at hexec
      have hlink : (((s.received l).onLink l Link.clearRun).beginRun l b capture).link l =
          (s.link l).received.clearRun.begun l b capture := by simp
      have hstatus : StatusRecorded l b s (((s.received l).onLink l Link.clearRun).beginRun l b capture) :=
        statusRecorded_of_beginRun (ActsOnLink.received.trans (.onLink _)) (by simp; rfl) (by simp; rfl)
      refine ⟨_, hexec, ?_⟩
      dsimp only
      rw [hlink]
      generalize s.link l = x at hstate hstep ⊢
      cases x
      refine ⟨blockWritten_of_ring rfl rfl rfl, hstatus, rfl, rfl, Link.valid_begun .., (if_pos hstep).mpr
        ⟨⟨hstate, rfl, rfl, stampEnters_first .., rfl, ?_⟩, rfl, rfl, Link.rateFaults_begun ..⟩⟩
      simp [Link.begun, Link.handedOn, Link.pushCapture, Link.restartGap, Link.clearRun, Link.received,
        Link.countValid, offeredQueue]
    case pos =>
      dsimp only at hexec
      rw [if_pos (((s.link l).seqStep_eq_one _).mpr hstep), State.extendRun_eq] at hexec
      have hafter : ActsOnLink l (· ≠ .serverStatus) ((s.received l).handOn l b b.frames)
          (((s.received l).handOn l b b.frames).judgeRun l b capture) := .judgeRun b capture (by decide) (by decide)
      have hhand : ((s.received l).handOn l b b.frames).link l = (s.link l).received.handedOn l b b.frames := by simp
      refine ⟨_, hexec, ?_⟩
      generalize ht : ((s.received l).handOn l b b.frames).judgeRun l b capture = t at hafter
      have hstatus (h : t.link l = (t.link l).withStatus b) : StatusRecorded l b s t :=
        statusRecorded_of_handOn .received (by simp; rfl) (by simp; rfl) hafter h
      have hrecords := recordsOffered_of_handOn (tag := (s.link l).written) (u := s.received l)
        (k := (s.link l).countValid.counters) rfl rfl (by simp; rfl) hafter
      cases hint : intervalOf (keepLast 9 ((s.link l).history ++ [⟨b.header.seq, capture⟩])) b.header.seq capture with
      | none =>
        have hlink := State.link_judgeRun_paused (b := b) (capture := capture)
          (s := (s.received l).handOn l b b.frames) (by rw [hhand]; exact Link.measure_none hint)
        rw [hhand, ht] at hlink
        replace hstatus := hstatus (by rw [hlink]; rfl)
        replace hrecords := hrecords (by rw [hlink]; rfl) (by rw [hlink]; rfl) (by rw [hlink]; rfl)
        dsimp only
        unfold intervalOf at hint
        rw [hlink, hint]
        generalize s.link l = x at hstate hstep hrecords ⊢
        cases x
        exact ⟨blockWritten_of_ring rfl rfl rfl, hstatus, rfl, rfl, LinkCounters.valid_offered ..,
          (if_neg (not_not.mpr hstep)).mpr
            ⟨hrecords, rfl, hstate, rfl, rfl, rfl, rfl, LinkCounters.rateFaults_offered ..⟩⟩
      | some d =>
        by_cases hd : 129761 ≤ d ∧ d ≤ 132383
        case neg =>
          have hlink := State.link_judgeRun_fault (b := b) (capture := capture)
            (s := (s.received l).handOn l b b.frames) (by rw [hhand]; exact Link.measure_fault hint hd)
          obtain ⟨k, hkvalid, hkfaults, hre⟩ := Link.reentered_spec l b capture (w := (s.link l).written)
            (x := (((s.link l).received.handedOn l b b.frames).grown b.header.seq capture).applyMeasure .fault) rfl
          rw [hhand, ht, hre] at hlink
          replace hstatus := hstatus (by rw [hlink]; rfl)
          replace hkvalid : k.valid = min ((s.link l).counters.valid + 1) 4294967295 :=
            hkvalid.trans (LinkCounters.valid_offered (k := (s.link l).countValid.counters) ..)
          replace hkfaults : k.rateFaults = min ((s.link l).counters.rateFaults + 1) 4294967295 :=
            hkfaults.trans (congrArg bump (LinkCounters.rateFaults_offered (k := (s.link l).countValid.counters) ..))
          dsimp only
          unfold intervalOf at hint
          rw [hlink, hint]
          generalize s.link l = x at hstate hstep hkvalid hkfaults ⊢
          cases x
          exact ⟨blockWritten_of_ring rfl rfl rfl, hstatus, rfl, rfl, hkvalid, (if_neg (not_not.mpr hstep)).mpr
            ((if_neg hd).mpr ⟨⟨hstate, rfl, rfl, rfl, Prod.ext (stampEnters_first ..).symm rfl, rfl⟩, rfl, rfl,
              hkfaults⟩)⟩
        case pos =>
          have hm := Link.measure_accepted (seq := b.header.seq) (capture := capture)
            (x := ((s.link l).received.handedOn l b b.frames).grown b.header.seq capture) hint hd
          by_cases hninth : 9 ≤ (s.link l).run + 1
          case pos =>
            have hlink := State.link_judgeRun_lock (b := b) (capture := capture)
              (s := (s.received l).handOn l b b.frames) (by rw [hhand]; exact hm) (by rw [hhand]; exact hninth)
            have hnotice := State.linkState_judgeRun_lock (b := b) (capture := capture)
              (s := (s.received l).handOn l b b.frames) (by rw [hhand]; exact hm) (by rw [hhand]; exact hninth)
              (by rw [hhand]; exact hstate)
            rw [ht] at hnotice
            rw [hhand, ht] at hlink
            replace hstatus := hstatus (by rw [hlink]; rfl)
            replace hrecords := hrecords (by rw [hlink]; rfl) (by rw [hlink]; rfl) (by rw [hlink]; rfl)
            dsimp only
            unfold intervalOf at hint
            rw [hlink, hint]
            generalize s.link l = x at hstate hstep hrecords hninth ⊢
            cases x
            exact ⟨blockWritten_of_ring rfl rfl rfl, hstatus, rfl, rfl, LinkCounters.valid_offered ..,
              (if_neg (not_not.mpr hstep)).mpr ((if_pos hd).mpr ⟨hrecords, rfl, rfl, rfl, rfl,
                LinkCounters.rateFaults_offered .., (if_pos hninth).mpr
                  ⟨rfl, rfl, rfl, rfl, targetOffset_at_128 _, rfl, rfl, rfl, hnotice⟩⟩)⟩
          case neg =>
            have hlink := State.link_judgeRun_accepted (b := b) (capture := capture)
              (s := (s.received l).handOn l b b.frames) (by rw [hhand]; exact hm) (by rw [hhand]; exact hninth)
            rw [hhand, ht] at hlink
            replace hstatus := hstatus (by rw [hlink]; rfl)
            replace hrecords := hrecords (by rw [hlink]; rfl) (by rw [hlink]; rfl) (by rw [hlink]; rfl)
            dsimp only
            unfold intervalOf at hint
            rw [hlink, hint]
            generalize s.link l = x at hstate hstep hrecords hninth ⊢
            cases x
            exact ⟨blockWritten_of_ring rfl rfl rfl, hstatus, rfl, rfl, LinkCounters.valid_offered ..,
              (if_neg (not_not.mpr hstep)).mpr ((if_pos hd).mpr ⟨hrecords, rfl, rfl, rfl, rfl,
                LinkCounters.rateFaults_offered .., (if_neg hninth).mpr ⟨hstate, rfl, rfl⟩⟩)⟩

end Sys2Proof.Machine
end

section
/-! SUPPORT. A valid block in step on a LOCKED or HOLDOVER link (R13, R14, R32): O22. -/

namespace Sys2Proof.Machine

/-! ### The return to LOCKED (R14) -/

/-- A link that a block returns to LOCKED: HOLDOVER ends and with it the holdover timer. -/
def Link.resumed (x : Link) : Link :=
  { x with state := .locked, holdDeadline := if x.state = .holdover then none else x.holdDeadline }

theorem State.link_resume {l : LinkId} {s : State} (h : (s.link l).state = .locked ∨ (s.link l).state = .holdover) :
    (s.resume l).link l = (s.link l).resumed := by
  unfold State.resume Link.resumed
  split
  · rename_i hh
    simp
  · rename_i hh
    rw [← h.resolve_right hh]

theorem State.linkState_resume {l : LinkId} {s : State} (h : (s.link l).state = .holdover) (q : PortId) :
    ((s.resume l).port q).isRaised .linkState = true := by
  simp [State.resume, h, State.port_setLinkState]

/-! ### Measuring, slipping and correcting (R30 to R34, R37) -/

/-- What the measurement of a capture makes of the measured offset `o`, its flag `m` and the rate faults `r` (R30). -/
def Measured (x : Link) (interval : Option Nat) (o : Int) (m : Bool) (r : Nat) : Prop :=
  match interval with
  | none => o = x.measuredOffset ∧ r = x.counters.rateFaults
  | some d =>
    if 129761 ≤ d ∧ d ≤ 132383 then
      o = ((2199023255552 + d / 2) / d : Nat) - 16777216 ∧ m = true ∧ r = x.counters.rateFaults
    else o = x.measuredOffset ∧ r = min (x.counters.rateFaults + 1) 4294967295

theorem Measured.congr {x y : Link} {interval : Option Nat} {o : Int} {m : Bool} {r : Nat}
    (h : Measured x interval o m r) (ho : x.measuredOffset = y.measuredOffset)
    (hr : x.counters.rateFaults = y.counters.rateFaults) : Measured y interval o m r := by
  unfold Measured at h ⊢
  rwa [← ho, ← hr]

/-- A measurement moves the measured offset, its flag and the count of rate faults alone. -/
theorem Link.measured_spec (x : Link) (seq : Seq) (capture : Tick) :
    ∃ o m r, Measured x (intervalOf x.history seq capture) o m r ∧
      x.applyMeasure (x.measure seq capture) =
        { x with measuredOffset := o, measured := m, counters := { x.counters with rateFaults := r } } := by
  cases hint : intervalOf x.history seq capture with
  | none =>
    refine ⟨x.measuredOffset, x.measured, x.counters.rateFaults, ⟨rfl, rfl⟩, ?_⟩
    rw [Link.measure_none hint]
    rfl
  | some d =>
    by_cases hd : 129761 ≤ d ∧ d ≤ 132383
    · refine ⟨intervalOffset d, true, x.counters.rateFaults, (if_pos hd).mpr ⟨rfl, rfl, rfl⟩, ?_⟩
      rw [Link.measure_accepted hint hd]
      rfl
    · refine ⟨x.measuredOffset, x.measured, bump x.counters.rateFaults, (if_neg hd).mpr ⟨rfl, rfl⟩, ?_⟩
      rw [Link.measure_fault hint hd]
      rfl

/-- A link after its fill check, when `done` house samples of the block are computed (R32, R37). -/
def Link.slipChecked (done : Nat) (x : Link) : Link := if x.mustSlip = true then x.slip done else x

theorem State.link_slipCheck (l : LinkId) (s : State) :
    (s.slipCheck l).link l = (s.link l).slipChecked s.samplesDone := by
  unfold State.slipCheck Link.slipChecked
  split <;> simp

/-- A slip raises SLIP at the link's server port and at port C (R37). -/
theorem State.slip_slipCheck {l : LinkId} {s : State} (h : (s.link l).mustSlip = true) :
    ((s.slipCheck l).port .C).isRaised .slip = true ∧
      ((s.slipCheck l).port (serverPort l)).isRaised .slip = true := by
  rw [State.slipCheck, if_pos h]
  cases l <;> simp [State.notifyServer, State.port_notify, serverPort]

theorem Link.mustSlip_eq {x : Link} {p : ReadPos} (h : x.readPos = some p) :
    x.mustSlip = decide ¬ (48 ≤ (x.written - p.index).toNat ∧ (x.written - p.index).toNat ≤ 208) := by
  simp only [Link.mustSlip, Link.fill, h, Link.age, Option.isSome_some, Bool.true_and, ← Bool.decide_or]
  exact decide_eq_decide.mpr (by omega)

/-- A link after the capture, the measurement, the fill check and the correction of a block handed on in LOCKED (R32). -/
def Link.settled (seq : Seq) (capture : Tick) (done : Nat) (x : Link) : Link :=
  let y := x.pushCapture seq capture
  ((y.applyMeasure (y.measure seq capture)).slipChecked done).correct.restartGap capture

theorem State.link_settleLocked (l : LinkId) (b : FeedBlock) (capture : Tick) (s : State) :
    (s.settleLocked l b capture).link l = (s.link l).settled b.header.seq capture s.samplesDone := by
  simp [State.settleLocked, Link.settled, State.link_slipCheck]

/-- The fill of a position that a lock or a slip sets is 128 (R36, R37). -/
theorem Link.fill_freshPos (x : Link) : ({ x with readPos := some x.freshPos } : Link).fill = 128 := by
  simp only [Link.fill, Link.age, Link.freshPos]
  bv_omega

theorem Link.slipChecked_within {x : Link} {p : ReadPos} (h : x.readPos = some p) (done : Nat)
    (hin : 48 ≤ (x.written - p.index).toNat ∧ (x.written - p.index).toNat ≤ 208) : x.slipChecked done = x := by
  rw [Link.slipChecked, Link.mustSlip_eq h, if_neg (by simpa using hin)]

theorem Link.slipChecked_outside {x : Link} {p : ReadPos} (h : x.readPos = some p) (done : Nat)
    (hout : ¬ (48 ≤ (x.written - p.index).toNat ∧ (x.written - p.index).toNat ≤ 208)) :
    x.slipChecked done = x.slip done := by
  rw [Link.slipChecked, Link.mustSlip_eq h, if_pos (decide_eq_true hout)]

theorem Link.correct_of_fill {x : Link} {fill : Nat} (h : x.fill = fill) :
    x.correct = { x with
      target := targetOffset x.measuredOffset fill
      applied := smooth x.applied (targetOffset x.measuredOffset fill) } := by
  rw [Link.correct, h]

/-- What settling moves on a link whose fill lies within the slip limits, and on one that slips; `p` is its read position
(R30 to R34, R37, R38). -/
theorem Link.settled_spec {x : Link} {p : ReadPos} (h : x.readPos = some p) (seq : Seq) (capture : Tick) (done : Nat) :
    ∃ o m r, Measured x (intervalOf (keepLast 9 (x.history ++ [⟨seq, capture⟩])) seq capture) o m r ∧
      x.settled seq capture done =
        if 48 ≤ (x.written - p.index).toNat ∧ (x.written - p.index).toNat ≤ 208 then
          { x with
            history := keepLast 9 (x.history ++ [⟨seq, capture⟩]), measuredOffset := o, measured := m
            counters := { x.counters with rateFaults := r }, gapDeadline := some (capture + 49152)
            target := targetOffset o (x.written - p.index).toNat
            applied := smooth x.applied (targetOffset o (x.written - p.index).toNat) }
        else
          { x with
            history := keepLast 9 (x.history ++ [⟨seq, capture⟩]), measuredOffset := o, measured := m
            counters := { x.counters with rateFaults := r, slips := bump x.counters.slips }
            gapDeadline := some (capture + 49152)
            departing := x.departAt done, readPos := some x.freshPos, fresh := .slip x.slipOrigin, fadeIn := false
            target := targetOffset o 128, applied := smooth x.applied (targetOffset o 128) } := by
  obtain ⟨o, m, r, hmeasured, heq⟩ := (x.pushCapture seq capture).measured_spec seq capture
  refine ⟨o, m, r, hmeasured, ?_⟩
  rw [Link.settled, heq]
  generalize hy : ({ x.pushCapture seq capture with
    measuredOffset := o, measured := m
    counters := { (x.pushCapture seq capture).counters with rateFaults := r } } : Link) = y
  have hpos : y.readPos = some p := by rw [← hy]; exact h
  have hwritten : y.written = x.written := by rw [← hy]; rfl
  split
  case isTrue hin =>
    have hfill : y.fill = (x.written - p.index).toNat := by
      simp only [Link.fill, hpos, Link.age, hwritten]
    rw [Link.slipChecked_within hpos done (by rwa [hwritten]), Link.correct_of_fill hfill, ← hy]
    rfl
  case isFalse hout =>
    rw [Link.slipChecked_outside hpos done (by rwa [hwritten]), Link.correct_of_fill (x := y.slip done) y.fill_freshPos,
      ← hy]
    rfl

/-- A block whose fill check finds the fill outside the slip limits raises SLIP (R32, R37). -/
theorem State.slip_settleLocked {l : LinkId} {s : State} {p : ReadPos} (b : FeedBlock) (capture : Tick)
    (h : (s.link l).readPos = some p)
    (hout : ¬ (48 ≤ ((s.link l).written - p.index).toNat ∧ ((s.link l).written - p.index).toNat ≤ 208)) :
    ((s.settleLocked l b capture).port .C).isRaised .slip = true ∧
      ((s.settleLocked l b capture).port (serverPort l)).isRaised .slip = true := by
  have hslip : ((((s.link l).pushCapture b.header.seq capture).applyMeasure
      (((s.link l).pushCapture b.header.seq capture).measure b.header.seq capture))).mustSlip = true := by
    obtain ⟨o, m, r, -, heq⟩ := ((s.link l).pushCapture b.header.seq capture).measured_spec b.header.seq capture
    rw [heq]
    refine (Link.mustSlip_eq (p := p) ?_).trans ?_
    · exact h
    · exact decide_eq_true hout
  unfold State.settleLocked
  dsimp only
  rw [State.port_onLink, State.port_onLink]
  exact State.slip_slipCheck (by simpa using hslip)

theorem Link.departAt_no {x : Link} {p : ReadPos} (hf : x.fresh = .no) (hp : x.readPos = some p) (done : Nat) :
    x.departAt done = some ⟨p, if x.fadeIn then done else 32, 32 - done, 0⟩ := by
  simp [Link.departAt, hf, hp]

theorem Link.departAt_fresh {x : Link} (hf : x.fresh ≠ .no) (done : Nat) : x.departAt done = x.departing := by
  unfold Link.departAt
  split
  · contradiction
  · rfl

/-- What a slip sets when it finds the freshness `f`: the freshness that keeps an origin, and the departing position
(R38, R52). -/
def SlipSets (x : Link) (p : ReadPos) (done : Nat) (f : Fresh) : Prop :=
  match f with
  | .no => Fresh.slip x.slipOrigin = .slip p.index ∧
      x.departAt done = some ⟨p, if x.fadeIn = true then done else 32, 32 - done, 0⟩
  | .lock => Fresh.slip x.slipOrigin = .slip p.index ∧ x.departAt done = x.departing
  | .slip origin => Fresh.slip x.slipOrigin = .slip origin ∧ x.departAt done = x.departing

theorem Link.slipSets {x : Link} {p : ReadPos} {f : Fresh} (hf : x.fresh = f) (hp : x.readPos = some p) (done : Nat) :
    SlipSets x p done f := by
  cases f with
  | no => exact ⟨congrArg _ (Link.slipOrigin_of_read (by simp [hf]) hp), Link.departAt_no hf hp done⟩
  | lock => exact ⟨congrArg _ (Link.slipOrigin_of_read (by simp [hf]) hp), Link.departAt_fresh (by simp [hf]) done⟩
  | slip origin => exact ⟨congrArg _ (Link.slipOrigin_of_slip hf), Link.departAt_fresh (by simp [hf]) done⟩

/-- A block taken on a LOCKED or HOLDOVER link, in step or across a gap (R13, R14). -/
theorem exec_feedBlock_running {l : LinkId} {symbols : List Symbol} {s : State} {capture : Tick}
    {got bytes : List Byte} {b : FeedBlock} (hrun : s.startup = .run)
    (hphase : (s.link l).phase = .assemble capture got) (hvalid : assemble l got symbols = (.ok b, bytes))
    (hstate : (s.link l).state = .locked ∨ (s.link l).state = .holdover) :
    exec (.feedBlock l symbols) s = .next (
      let d := (s.link l).seqStep b.header.seq
      if 1 ≤ d ∧ d ≤ 3 then ((s.received l).resume l).takeLocked l b capture d else (s.received l).enterSearch l) := by
  rw [exec_feedBlock_valid hrun hphase hvalid, State.takeValid]
  rcases hstate with h | h <;> simp [h]

/-- Settles O22: the block is handed on at the link returned to LOCKED and then settled (`Link.settled_spec`). -/
theorem feedBlockInStepWhenLocked : Obligations.FeedBlockInStepWhenLocked := by
  unfold Obligations.FeedBlockInStepWhenLocked
  intro l symbols s capture got bytes b p hrun hphase hvalid hstate hpos hstep
  have hexec := exec_feedBlock_running hrun hphase hvalid hstate
  rw [((s.link l).seqStep_eq_one _).mpr hstep] at hexec
  generalize hu : (s.received l).resume l = u at hexec
  replace hexec : exec (.feedBlock l symbols) s = .next ((u.handOn l b b.frames).settleLocked l b capture) := hexec
  have hbefore {N : Notice → Prop} (hN : N .linkState) : ActsOnLink l N s u := by
    rw [← hu]
    exact ActsOnLink.received.trans (.resume hN)
  have hafter {N : Notice → Prop} (hN : N .slip) :
      ActsOnLink l N (u.handOn l b b.frames) ((u.handOn l b b.frames).settleLocked l b capture) :=
    .settleLocked b capture hN
  have hulink : u.link l = (s.link l).received.resumed := by
    rw [← hu, State.link_resume (by simpa using hstate), State.link_received]
  have hdone : (u.handOn l b b.frames).samplesDone = s.samplesDone :=
    ((hbefore (N := fun _ => True) trivial).trans (.handOn b _ trivial trivial)).samplesDone
  have hlink := State.link_settleLocked l b capture (u.handOn l b b.frames)
  rw [State.link_handOn, hulink, hdone] at hlink
  obtain ⟨o, m, r, hmeasured, hsettled⟩ := Link.settled_spec (p := p)
    (x := (s.link l).received.resumed.handedOn l b b.frames) hpos b.header.seq capture s.samplesDone
  rw [hsettled] at hlink
  have hholdover (h : (s.link l).state = .holdover) (q : PortId) :
      (((u.handOn l b b.frames).settleLocked l b capture).port q).isRaised .linkState = true := by
    refine (hafter (N := fun _ => True) trivial).kept q _ ((ActsOnLink.handOn (N := fun _ => True) b _ trivial
      trivial).kept q _ ?_)
    rw [← hu]
    exact State.linkState_resume (by simpa using h) q
  replace hmeasured : Measured (s.link l)
      (intervalOf (keepLast 9 ((s.link l).history ++ [⟨b.header.seq, capture⟩])) b.header.seq capture) o m r :=
    hmeasured.congr rfl (LinkCounters.rateFaults_offered (k := (s.link l).countValid.counters) ..)
  have hslips : bump ((s.link l).received.resumed.handedOn l b b.frames).counters.slips =
      bump (s.link l).counters.slips :=
    congrArg bump (LinkCounters.slips_offered (k := (s.link l).countValid.counters) ..)
  have hdeparts := Link.slipSets (x := (s.link l).received.resumed.handedOn l b b.frames) (f := (s.link l).fresh) rfl
    hpos s.samplesDone
  have hslipNotice := State.slip_settleLocked b capture (s := u.handOn l b b.frames) (l := l) (p := p)
    (by rw [State.link_handOn, hulink]; exact hpos)
  rw [State.link_handOn, hulink] at hslipNotice
  have hstatus := statusRecorded_of_handOn (hbefore (N := (· ≠ .serverStatus)) (by decide)) (by rw [hulink]; rfl)
    (by rw [hulink]; rfl) (hafter (by decide))
  have hrecords := recordsOffered_of_handOn (tag := (s.link l).written) (u := u) (s := s)
    (k := (s.link l).countValid.counters) rfl rfl (by rw [hulink]; rfl) (hafter (N := fun _ => True) trivial)
  refine ⟨_, hexec, ?_⟩
  by_cases hfill : 48 ≤ ((s.link l).written + 32 - p.index).toNat ∧ ((s.link l).written + 32 - p.index).toNat ≤ 208
  case pos =>
    replace hlink := hlink.trans (if_pos hfill)
    replace hstatus := hstatus (by rw [hlink]; rfl)
    replace hrecords := hrecords (by rw [hlink]; rfl) (by rw [hlink]; rfl) (by rw [hlink]; rfl)
    dsimp only
    rw [hlink]
    generalize s.link l = x at hpos hstate hholdover hmeasured hfill hrecords ⊢
    cases x
    exact ⟨fun h => ⟨if_pos h, hholdover h⟩, rfl, blockWritten_of_ring rfl rfl rfl, rfl, rfl, hstatus, rfl, hrecords,
      hmeasured, (if_pos hfill).mpr ⟨hpos, rfl, rfl, rfl, LinkCounters.slips_offered .., rfl⟩, rfl⟩
  case neg =>
    replace hlink := hlink.trans (if_neg hfill)
    replace hstatus := hstatus (by rw [hlink]; rfl)
    replace hrecords := hrecords (by rw [hlink]; rfl) (by rw [hlink]; rfl) (by rw [hlink]; rfl)
    obtain ⟨hportC, hportServer⟩ := hslipNotice hfill
    dsimp only
    rw [hlink]
    generalize s.link l = x at hpos hstate hholdover hmeasured hfill hrecords hslips hdeparts ⊢
    exact ⟨fun h => ⟨if_pos h, hholdover h⟩, rfl, blockWritten_of_ring rfl rfl rfl, rfl, rfl, hstatus, rfl, hrecords,
      hmeasured, (if_neg hfill).mpr ⟨rfl, rfl, hdeparts, hslips, hportC, hportServer, targetOffset_at_128 _⟩, rfl⟩

end Sys2Proof.Machine
end

section
/-! SUPPORT. A valid block across a gap on a LOCKED or HOLDOVER link (R13, R15, R39): O23. -/

namespace Sys2Proof.Machine

/-! ### Fading out the block before the gap (R39) -/

theorem place_lt (base i : FrameIndex) : place base i < 256 := Nat.mod_lt _ (by decide)

theorem place_eq_iff (base i : FrameIndex) {n : Nat} (hn : n < 256) :
    (base + BitVec.ofNat 32 n).toNat % 256 = i.toNat % 256 ↔ place base i = n := by
  unfold place
  bv_omega

theorem place_add (base : FrameIndex) {n : Nat} (hn : n < 256) : place base (base + BitVec.ofNat 32 n) = n := by
  unfold place
  bv_omega

@[simp] theorem length_fadeFrameOut (reader base : FrameIndex) (ring : List (List Int)) (f : Nat) :
    (fadeFrameOut reader base ring f).length = ring.length := by
  unfold fadeFrameOut
  dsimp only
  split <;> simp

/-- Fading out frame `n` from a base reaches the ring place of that frame alone, and that only above the reader's reach. -/
theorem getD_fadeFrameOut {ring : List (List Int)} (hr : ring.length = 256) (reader base i : FrameIndex) {n : Nat}
    (hn : n < 256) :
    (fadeFrameOut reader base ring n).getD (i.toNat % 256) [] =
      if place base i = n ∧ 1 ≤ (base + BitVec.ofNat 32 n - (reader + 2)).toNat ∧
          (base + BitVec.ofNat 32 n - (reader + 2)).toNat < 2147483648
      then (ring.getD (i.toNat % 256) []).map (gapOut n) else ring.getD (i.toNat % 256) [] := by
  have hi : i.toNat % 256 < ring.length := by
    rw [hr]
    exact Nat.mod_lt _ (by decide)
  unfold fadeFrameOut
  dsimp only
  by_cases habove : 1 ≤ (base + BitVec.ofNat 32 n - (reader + 2)).toNat ∧
      (base + BitVec.ofNat 32 n - (reader + 2)).toNat < 2147483648
  · rw [if_pos habove, List.getD_eq_getElem _ _ (by simpa using hi), List.getD_eq_getElem _ _ hi, List.getElem_modify]
    by_cases hp : place base i = n
    · rw [if_pos ((place_eq_iff base i hn).mpr hp), if_pos ⟨hp, habove⟩]
    · rw [if_neg (mt (place_eq_iff base i hn).mp hp), if_neg fun h => hp h.1]
  · rw [if_neg habove, if_neg fun h => habove h.2]

/-- Fading out the first `n` frames from a base. -/
theorem getD_fadeFramesOut {ring : List (List Int)} (hr : ring.length = 256) (reader base i : FrameIndex) {n : Nat}
    (hn : n ≤ 256) :
    ((List.range n).foldl (fadeFrameOut reader base) ring).length = 256 ∧
    ((List.range n).foldl (fadeFrameOut reader base) ring).getD (i.toNat % 256) [] =
      if place base i < n ∧ 1 ≤ (base + BitVec.ofNat 32 (place base i) - (reader + 2)).toNat ∧
          (base + BitVec.ofNat 32 (place base i) - (reader + 2)).toNat < 2147483648
      then (ring.getD (i.toNat % 256) []).map (gapOut (place base i)) else ring.getD (i.toNat % 256) [] := by
  induction n with
  | zero => simp [hr]
  | succ n ih =>
    obtain ⟨hlen, hget⟩ := ih (by omega)
    rw [List.range_succ, List.foldl_append, List.foldl_cons, List.foldl_nil]
    refine ⟨by rw [length_fadeFrameOut, hlen], ?_⟩
    rw [getD_fadeFrameOut hlen reader base i (by omega), hget]
    rcases Nat.lt_trichotomy (place base i) n with hlt | heq | hgt
    · rw [if_neg fun h => hlt.ne h.1]
      simp [hlt, Nat.lt_succ_of_lt hlt]
    · simp [heq]
    · rw [if_neg fun h => hgt.ne' h.1]
      simp [Nat.not_lt.mpr hgt.le, Nat.not_lt.mpr (Nat.succ_le_of_lt hgt)]

/-! ### Concealed blocks (R15) -/

/-- A link after one concealed block and its fill check. -/
def Link.concealedOnce (l : LinkId) (done : Nat) (x : Link) : Link := (x.writeConcealed l).slipChecked done

theorem State.link_conceal (l : LinkId) (g : Nat) (s : State) :
    (s.conceal l g).link l = (Link.concealedOnce l s.samplesDone)^[g] (s.link l) := by
  induction g generalizing s with
  | zero => rfl
  | succ g ih =>
    have hacts : ActsOnLink l (fun _ => True) s ((s.onLink l (Link.writeConcealed l)).slipCheck l) :=
      (ActsOnLink.onLink _).trans (.slipCheck trivial)
    rw [State.conceal, ih, hacts.samplesDone, State.link_slipCheck, State.link_onLink_self, State.samplesDone_onLink]
    rfl

/-- A frame of a concealed block (R15). -/
def silentFrame (l : LinkId) : List Int := List.replicate (linkWidth l) 0

/-- The stamps of `g` concealed blocks written from `w` on, that continue the stamp `σ` by 32 each (R15). -/
def concealedStamps (w : FrameIndex) (σ : Stamp) (g : Nat) : List (FrameIndex × ShowPos × Transport × Nat) :=
  (List.range g).map fun k => (w + BitVec.ofNat 32 (32 * k),
    ⟨σ.pos.reel, (σ.pos.lin + 32 * (k + 1)) % 131072000⟩, σ.transport, σ.tracks)

/-- The first of a run of concealed stamps, and the rest, which continue it. -/
theorem concealedStamps_succ (w : FrameIndex) (σ : Stamp) (mark : Bool) (g : Nat) :
    concealedStamps w σ (g + 1) = (w, σ.pos.add 32, σ.transport, σ.tracks) ::
      concealedStamps (w + 32) ⟨w, σ.pos.add 32, σ.transport, σ.tracks, mark⟩ g := by
  rw [concealedStamps, List.range_succ_eq_map, List.map_cons, List.map_map]
  congr 1
  · simp [ShowPos.add]
  · refine List.map_congr_left fun k _ => ?_
    have hindex : w + BitVec.ofNat 32 (32 * (k + 1)) = w + 32 + BitVec.ofNat 32 (32 * k) := by
      rw [Nat.mul_succ, Nat.add_comm, BitVec.add_assoc, BitVec.ofNat_add]
      rfl
    have hlin : (σ.pos.lin + 32 * (k + 1 + 1)) % 131072000 = ((σ.pos.lin + 32) % 131072000 + 32 * (k + 1)) % 131072000 := by
      omega
    simp only [Function.comp, Nat.succ_eq_add_one, ShowPos.add, hindex, hlin]

/-- From `x` to `y`, `g` blocks were concealed on a link (R15). Where the fill check slips is left open. -/
structure Concealed (l : LinkId) (g : Nat) (x y : Link) : Prop where
  state : y.state = x.state
  phase : y.phase = x.phase
  holdDeadline : y.holdDeadline = x.holdDeadline
  health : y.health = x.health
  pull : y.pull = x.pull
  queue : y.queue = x.queue
  dropped : y.counters.dropped = x.counters.dropped
  ignored : y.counters.ignored = x.counters.ignored
  concealed : y.counters.concealed = bump^[g] x.counters.concealed
  written : y.written = x.written + BitVec.ofNat 32 (32 * g)
  held : ∀ k, min 256 (y.held + k) = min 256 (x.held + 32 * g + k)
  ring : y.ring = writeFrames x.ring x.written (List.replicate (32 * g) (silentFrame l))
  stamps : ∀ σ, x.stamps.getLast? = some σ →
    (y.stamps, y.contRef) = (concealedStamps x.written σ g).foldl (stampEnters l) (x.stamps, x.contRef)

/-- A fill check moves the read position with what hangs on it, and the count of slips. -/
theorem Link.slipChecked_spec (x : Link) (done : Nat) :
    ∃ p f d i n, x.slipChecked done =
      { x with readPos := p, fresh := f, departing := d, fadeIn := i, counters := { x.counters with slips := n } } := by
  unfold Link.slipChecked
  split
  · exact ⟨_, _, _, _, _, rfl⟩
  · exact ⟨_, _, _, _, _, rfl⟩

/-- The newest stamp of a queue that keeps its newest 16. -/
theorem getLast?_stampEnters (l : LinkId) (before : List Stamp × Option ShowPos) (first : FrameIndex) (pos : ShowPos)
    (transport : Transport) (tracks : Nat) :
    ∃ mark, (stampEnters l before (first, pos, transport, tracks)).1.getLast? =
      some ⟨first, pos, transport, tracks, mark⟩ := by
  unfold stampEnters
  dsimp only
  rw [List.getLast?_drop, if_neg (by simp), List.getLast?_append]
  exact ⟨_, rfl⟩

/-- One concealed block (R15). -/
theorem Link.concealedOnce_spec (l : LinkId) (done : Nat) (x : Link) : Concealed l 1 x (x.concealedOnce l done) := by
  obtain ⟨p, f, d, i, n, heq⟩ := (x.writeConcealed l).slipChecked_spec done
  rw [Link.concealedOnce, heq]
  refine ⟨?_, ?_, ?_, ?_, ?_, ?_, ?_, ?_, ?_, ?written, fun k => ?held, ?ring, fun σ hσ => ?stamps⟩
  case held =>
    show min 256 (min 256 (x.held + 32) + k) = _
    omega
  case stamps =>
    have hstamp : x.concealedStamp = (σ.pos.add 32, σ.transport, σ.tracks) := by rw [Link.concealedStamp, hσ]
    have h := stampEnters_eq l x x.written (σ.pos.add 32) σ.transport σ.tracks
    rw [concealedStamps_succ x.written σ true 0, List.foldl_cons, concealedStamps, List.range_zero, List.map_nil,
      List.foldl_nil, ← h]
    unfold Link.writeConcealed
    rw [hstamp]
    rfl
  case written =>
    rw [Nat.mul_one]
    cases x
    rfl
  case ring => simp only [Link.writeConcealed, Link.writeBlock, silentFrame, Nat.mul_one]
  all_goals
    cases x
    rfl

/-- A concealed block after others. -/
theorem Concealed.cons {l : LinkId} {g : Nat} {x y z : Link} (h₁ : Concealed l 1 x y) (h : Concealed l g y z) :
    Concealed l (g + 1) x z where
  state := h.state.trans h₁.state
  phase := h.phase.trans h₁.phase
  holdDeadline := h.holdDeadline.trans h₁.holdDeadline
  health := h.health.trans h₁.health
  pull := h.pull.trans h₁.pull
  queue := h.queue.trans h₁.queue
  dropped := h.dropped.trans h₁.dropped
  ignored := h.ignored.trans h₁.ignored
  concealed := by rw [h.concealed, h₁.concealed, Function.iterate_one, Function.iterate_succ_apply]
  written := by rw [h.written, h₁.written, BitVec.add_assoc, ← BitVec.ofNat_add]; congr 2; omega
  held k := by rw [h.held, Nat.add_assoc, h₁.held]; congr 1; omega
  ring := by
    rw [h.ring, h₁.ring, h₁.written, show 32 * (g + 1) = 32 * 1 + 32 * g by omega, List.replicate_add,
      writeFrames_append, List.length_replicate]
  stamps σ hσ := by
    have hone := h₁.stamps σ hσ
    rw [concealedStamps_succ _ _ true] at hone
    obtain ⟨mark, hlast⟩ := getLast?_stampEnters l (x.stamps, x.contRef) x.written (σ.pos.add 32) σ.transport σ.tracks
    rw [h.stamps _ ((congrArg (fun q => q.1.getLast?) hone).trans hlast), hone, h₁.written, concealedStamps_succ _ _ mark,
      List.foldl_cons]
    rfl

/-- `g` concealed blocks, one after the other. -/
theorem Link.concealed_iterate (l : LinkId) (done g : Nat) (x : Link) :
    Concealed l g x ((Link.concealedOnce l done)^[g] x) := by
  induction g generalizing x with
  | zero =>
    exact ⟨rfl, rfl, rfl, rfl, rfl, rfl, rfl, rfl, rfl, (BitVec.add_zero _).symm, fun _ => rfl, rfl, fun _ _ => rfl⟩
  | succ g ih => exact (x.concealedOnce_spec l done).cons (ih _)

end Sys2Proof.Machine
end

section
/-! SUPPORT. A valid block across a gap on a LOCKED or HOLDOVER link (R13, R15, R39): O23. -/

namespace Sys2Proof.Machine

/-! ### Sequence steps -/

/-- A step that is neither in step nor across a gap of one or two blocks is none that a running link takes (R13). -/
theorem Link.seqStep_discarded {x : Link} {seq : Seq} (h1 : seq ≠ x.seq + 1)
    (h23 : ¬ (seq = x.seq + 2 ∨ seq = x.seq + 3)) : ¬ (1 ≤ x.seqStep seq ∧ x.seqStep seq ≤ 3) := by
  have e1 := mt (x.seqStep_eq_iff seq (n := 1) (by decide)).mp h1
  have e2 := mt (x.seqStep_eq_iff seq (n := 2) (by decide)).mp (not_or.mp h23).1
  have e3 := mt (x.seqStep_eq_iff seq (n := 3) (by decide)).mp (not_or.mp h23).2
  omega

/-! ### Queues that keep their newest entries -/

theorem keepLast_keepLast_append {α : Type} (n : Nat) (xs ys : List α) :
    keepLast n (keepLast n xs ++ ys) = keepLast n (xs ++ ys) := by
  unfold keepLast
  rw [← List.drop_append_of_le_length (by omega), List.drop_drop]
  congr 1
  simp only [List.length_append, List.length_drop]
  omega

/-- A stamp without its locate mark. -/
def Stamp.shape (σ : Stamp) : FrameIndex × ShowPos × Transport × Nat := (σ.first, σ.pos, σ.transport, σ.tracks)

theorem map_shape_stampEnters (l : LinkId) (before : List Stamp × Option ShowPos)
    (e : FrameIndex × ShowPos × Transport × Nat) :
    (stampEnters l before e).1.map Stamp.shape = keepLast 16 (before.1.map Stamp.shape ++ [e]) := by
  simp [stampEnters, keepLast, Stamp.shape, List.map_drop]

/-- The stamps that a run of entries leaves, whatever their marks (R27). -/
theorem map_shape_foldl_stampEnters (l : LinkId) (es : List (FrameIndex × ShowPos × Transport × Nat))
    (e : FrameIndex × ShowPos × Transport × Nat) (before : List Stamp × Option ShowPos) :
    ((es ++ [e]).foldl (stampEnters l) before).1.map Stamp.shape =
      keepLast 16 (before.1.map Stamp.shape ++ (es ++ [e])) := by
  induction es generalizing before with
  | nil => exact map_shape_stampEnters l before e
  | cons d es ih =>
    rw [List.cons_append, List.foldl_cons, ih, map_shape_stampEnters, keepLast_keepLast_append, List.append_assoc,
      List.singleton_append]

/-! ### The link across a gap -/

/-- A link's ring after the block before a gap is faded out above the reader's reach (R39). -/
def Link.fadedRing (x : Link) : List (List Int) :=
  match x.readPos with
  | none => x.ring
  | some p => (List.range 32).foldl (fadeFrameOut p.index (x.written - 32)) x.ring

theorem Link.fadeOutLast_eq (x : Link) : x.fadeOutLast = { x with ring := x.fadedRing } := by
  by_cases h : x.readPos = none
  · have hsame : x.fadeOutLast = x := by simp only [Link.fadeOutLast, h]
    have hring : x.fadedRing = x.ring := by simp only [Link.fadedRing, h]
    rw [hsame, hring]
  · obtain ⟨p, hp⟩ := Option.ne_none_iff_exists'.mp h
    simp only [Link.fadeOutLast, Link.fadedRing, hp]

/-- Settling leaves a link's state, frames, stamps, queue, status and other counters alone. -/
theorem Link.settled_frame (x : Link) (seq : Seq) (capture : Tick) (done : Nat) :
    ∃ h o m p f d i tg ap r n, x.settled seq capture done =
      { x with
        history := h, measuredOffset := o, measured := m, readPos := p, fresh := f, departing := d, fadeIn := i
        target := tg, applied := ap, gapDeadline := some (capture + 49152)
        counters := { x.counters with rateFaults := r, slips := n } } := by
  obtain ⟨o, m, r, -, hmeasured⟩ := (x.pushCapture seq capture).measured_spec seq capture
  rw [Link.settled, hmeasured]
  obtain ⟨p, f, d, i, n, hchecked⟩ := Link.slipChecked_spec
    { x.pushCapture seq capture with
      measuredOffset := o, measured := m, counters := { (x.pushCapture seq capture).counters with rateFaults := r } } done
  rw [hchecked]
  exact ⟨_, _, _, _, _, _, _, _, _, _, _, rfl⟩

/-- From `x` to `y`, a running link took a block across a gap of `g` blocks (R13 to R15, R39). -/
structure Bridged (l : LinkId) (b : FeedBlock) (capture : Tick) (g : Nat) (x y : Link) : Prop where
  state : y.state = .locked
  phase : y.phase = .hunt
  written : y.written = x.written + BitVec.ofNat 32 (32 * g) + 32
  concealed : y.counters.concealed = bump^[g] x.counters.concealed
  gapDeadline : y.gapDeadline = some (capture + 49152)
  holdDeadline : x.state = .holdover → y.holdDeadline = none
  status : y = y.withStatus b
  queue : y.queue = offeredQueue l (x.written + BitVec.ofNat 32 (32 * g)) b.records x.queue
  dropped : y.counters.dropped = (x.counters.offered l b.records.length (64 - x.queue.length)).dropped
  ignored : y.counters.ignored = (x.counters.offered l b.records.length (64 - x.queue.length)).ignored
  held : y.held = min 256 (x.held + 32 * (g + 1))
  ring : y.ring = writeFrames x.fadedRing x.written
    (List.replicate (32 * g) (silentFrame l) ++ fadeFramesIn b.frames)
  stamps : ∀ σ, x.stamps.getLast? = some σ → (y.stamps, y.contRef) =
    (concealedStamps x.written σ g ++ [(x.written + BitVec.ofNat 32 (32 * g), b.header.pos, b.header.transport,
      b.header.tracks)]).foldl (stampEnters l) (x.stamps, x.contRef)

/-- The block that closes a gap is handed on behind the concealed blocks, and the link then settled. -/
theorem Concealed.bridged {l : LinkId} {g : Nat} {x v : Link} (h : Concealed l g x.received.resumed.fadeOutLast v)
    (b : FeedBlock) (capture : Tick) (done : Nat) :
    Bridged l b capture g x ((v.handedOn l b (fadeFramesIn b.frames)).settled b.header.seq capture done) := by
  obtain ⟨hh, o, m, p, f, d, i, tg, ap, r, n, heq⟩ :=
    (v.handedOn l b (fadeFramesIn b.frames)).settled_frame b.header.seq capture done
  rw [heq]
  rw [Link.fadeOutLast_eq] at h
  have hdropped : (v.counters.offered l b.records.length (64 - v.queue.length)).dropped =
      (x.counters.offered l b.records.length (64 - x.queue.length)).dropped := by
    rw [h.queue]
    exact LinkCounters.dropped_offered_congr h.dropped
  have hignored : (v.counters.offered l b.records.length (64 - v.queue.length)).ignored =
      (x.counters.offered l b.records.length (64 - x.queue.length)).ignored := by
    rw [h.queue]
    exact LinkCounters.ignored_offered_congr h.ignored
  constructor
  case state => exact h.state
  case phase => exact h.phase
  case written => exact congrArg (· + 32) h.written
  case concealed => exact (LinkCounters.concealed_offered ..).trans h.concealed
  case gapDeadline => rfl
  case holdDeadline => exact fun hh => h.holdDeadline.trans (if_pos hh)
  case status => rfl
  case queue => exact congrArg₂ (offeredQueue l · b.records ·) h.written h.queue
  case dropped => exact hdropped
  case ignored => exact hignored
  case held => exact (h.held 32).trans (show min 256 (x.held + 32 * g + 32) = _ by omega)
  case ring =>
    rw [writeFrames_append, List.length_replicate]
    exact congrArg₂ (writeFrames · · (fadeFramesIn b.frames)) h.ring h.written
  case stamps =>
    intro σ hσ
    rw [List.foldl_append, List.foldl_cons, List.foldl_nil]
    exact congrArg₂ (fun q w => stampEnters l q (w, b.header.pos, b.header.transport, b.header.tracks)) (h.stamps σ hσ)
      h.written

/-! ### What is read across a gap (R39) -/

/-- Counting ring places from one block further back. -/
theorem place_sub (base i : FrameIndex) : place (base - 32) i = (place base i + 32) % 256 := by
  unfold place
  bv_omega

section
variable {l : LinkId} {b : FeedBlock} {capture : Tick} {g : Nat} {x y : Link} {p : ReadPos}

/-- What a frame index reads once the block before a gap is faded out: its samples faded when it is one of that block's,
above the reader's reach. -/
theorem Link.getD_fadedRing (hr : x.ring.length = 256) (hp : x.readPos = some p) (i : FrameIndex) :
    x.fadedRing.length = 256 ∧ x.fadedRing.getD (i.toNat % 256) [] =
      let n := place (x.written - 32) i
      if n < 32 ∧ 1 ≤ (x.written - 32 + BitVec.ofNat 32 n - (p.index + 2)).toNat ∧
          (x.written - 32 + BitVec.ofNat 32 n - (p.index + 2)).toNat < 2147483648
      then (x.frame i).map (gapOut n) else x.frame i := by
  unfold Link.fadedRing
  rw [hp]
  exact getD_fadeFramesOut hr p.index (x.written - 32) i (by decide)

/-- What a frame index reads after a block across a gap: the concealed frames, then the faded ones, then what stood. -/
theorem Bridged.frame (h : Bridged l b capture g x y) (hr : x.fadedRing.length = 256) (hg : g ≤ 2)
    (hb : b.frames.length = 32) (i : FrameIndex) :
    y.frame i = if place x.written i < 32 * (g + 1) then
        (List.replicate (32 * g) (silentFrame l) ++ fadeFramesIn b.frames).getD (place x.written i) []
      else x.fadedRing.getD (i.toNat % 256) [] := by
  have hlen : (List.replicate (32 * g) (silentFrame l) ++ fadeFramesIn b.frames).length = 32 * (g + 1) := by
    simp [fadeFramesIn, hb]
    omega
  rw [Link.frame, h.ring, getD_writeFrames hr _ _ (by omega), hlen]

/-- The frames that lie neither in the block before a gap nor behind it stay. -/
theorem Bridged.frame_kept (h : Bridged l b capture g x y) (hr : x.ring.length = 256) (hp : x.readPos = some p)
    (hg : g ≤ 2) (hb : b.frames.length = 32) {i : FrameIndex} (hi : 32 * (g + 2) ≤ place (x.written - 32) i) :
    y.frame i = x.frame i := by
  obtain ⟨hlen, hget⟩ := Link.getD_fadedRing hr hp i
  have hsub := place_sub x.written i
  have hlt := place_lt x.written i
  rw [h.frame hlen hg hb, if_neg (by omega), hget]
  exact if_neg fun hc => by omega

/-- The concealed frames are silent. -/
theorem Bridged.frame_concealed (h : Bridged l b capture g x y) (hr : x.fadedRing.length = 256) (hg : g ≤ 2)
    (hb : b.frames.length = 32) {i : Nat} (hi : i < 32 * g) :
    y.frame (x.written + BitVec.ofNat 32 i) = silentFrame l := by
  rw [h.frame hr hg hb, place_add _ (by omega), if_pos (by omega), List.getD_append _ _ _ _ (by simpa using hi),
    List.getD_replicate _ hi]

/-- The frames of the block that closes the gap are faded in. -/
theorem Bridged.frame_faded (h : Bridged l b capture g x y) (hr : x.fadedRing.length = 256) (hg : g ≤ 2)
    (hb : b.frames.length = 32) {f : Nat} (hf : f < 32) :
    y.frame (x.written + BitVec.ofNat 32 (32 * g + f)) = (b.frames.getD f []).map (gapIn f) := by
  rw [h.frame hr hg hb, place_add _ (by omega), if_pos (by omega),
    List.getD_append_right _ _ _ _ (by simp), List.length_replicate, Nat.add_sub_cancel_left]
  simp [fadeFramesIn, List.getD_eq_getElem?_getD, hb, hf]

/-- The frames of the block before the gap are faded out above the reader's reach. -/
theorem Bridged.frame_before (h : Bridged l b capture g x y) (hr : x.ring.length = 256) (hp : x.readPos = some p)
    (hg : g ≤ 2) (hb : b.frames.length = 32) {f : Nat} (hf : f < 32) :
    let i := x.written - 32 + BitVec.ofNat 32 f
    y.frame i = if 1 ≤ (i - (p.index + 2)).toNat ∧ (i - (p.index + 2)).toNat < 2147483648 then
      (x.frame i).map (gapOut f) else x.frame i := by
  intro i
  obtain ⟨hlen, hget⟩ := Link.getD_fadedRing hr hp i
  have hplace : place (x.written - 32) i = f := place_add _ (by omega)
  have hsub := place_sub x.written i
  have hlt := place_lt x.written i
  rw [h.frame hlen hg hb, if_neg (by omega), hget, hplace]
  simp [hf, i]

end

/-! ### The block across the gap -/

/-- A block across a gap is handed on behind the concealed blocks, on the link returned to LOCKED. -/
theorem State.takeLocked_gap {l : LinkId} {b : FeedBlock} {capture : Tick} {g : Nat} (hg : g ≠ 0) (s : State) :
    s.takeLocked l b capture (g + 1) =
      ((((s.onLink l Link.fadeOutLast).conceal l g).handOn l b (fadeFramesIn b.frames)).settleLocked l b capture) := by
  rw [State.takeLocked, if_neg (by omega), State.handOnLocked_eq, Nat.add_sub_cancel]

section
variable {l : LinkId} {s : State} {b : FeedBlock} {g : Nat}

/-- What the command makes of a block across a gap: the link, the status record, the records and the notices. -/
theorem takeLocked_bridges (hstate : (s.link l).state = .locked ∨ (s.link l).state = .holdover) (hg : g ≠ 0)
    (capture : Tick) :
    let t := ((s.received l).resume l).takeLocked l b capture (g + 1)
    Bridged l b capture g (s.link l) (t.link l) ∧ StatusRecorded l b s t ∧
      RecordsOffered l ((s.link l).written + BitVec.ofNat 32 (32 * g)) b.records s t ∧
      ((s.link l).state = .holdover → ∀ q, (t.port q).isRaised .linkState = true) := by
  intro t
  have ht : t = _ := State.takeLocked_gap (l := l) (b := b) (capture := capture) hg ((s.received l).resume l)
  generalize hv : (((s.received l).resume l).onLink l Link.fadeOutLast).conceal l g = v at ht
  have hresume {N : Notice → Prop} (hN : N .linkState) : ActsOnLink l N s ((s.received l).resume l) :=
    ActsOnLink.received.trans (.resume hN)
  have hrest {N : Notice → Prop} (hN : N .slip) : ActsOnLink l N ((s.received l).resume l) v := by
    rw [← hv]
    exact (ActsOnLink.onLink _).trans (.conceal g hN)
  have hafter {N : Notice → Prop} (hN : N .slip) : ActsOnLink l N (v.handOn l b (fadeFramesIn b.frames)) t := by
    rw [ht]
    exact .settleLocked b capture hN
  have hconcealed : Concealed l g (s.link l).received.resumed.fadeOutLast (v.link l) := by
    rw [← hv, State.link_conceal, State.link_onLink_self, State.link_resume (by simpa using hstate),
      State.link_received]
    exact Link.concealed_iterate ..
  have hbridged : Bridged l b capture g (s.link l) (t.link l) := by
    rw [ht, State.link_settleLocked, State.link_handOn]
    exact hconcealed.bridged b capture _
  rw [Link.fadeOutLast_eq] at hconcealed
  refine ⟨hbridged, ?_, ?_, fun hhold q => ?_⟩
  · exact statusRecorded_of_handOn ((hresume (by decide)).trans (hrest (by decide))) hconcealed.health hconcealed.pull
      (hafter (by decide)) hbridged.status
  · exact recordsOffered_of_handOn rfl rfl hconcealed.queue (hafter (N := fun _ => True) trivial) hbridged.queue
      hbridged.dropped hbridged.ignored
  · have hraised := State.linkState_resume (s := s.received l) (l := l) (by simpa using hhold) q
    exact (((hrest (N := fun _ => True) trivial).trans (.handOn b _ trivial trivial)).trans (hafter trivial)).kept q _
      hraised

end

/-- Settles O23: a gap of one or two blocks leaves the link as `Bridged` says; any other step clears it into SEARCH. -/
theorem feedBlockAcrossAGap : Obligations.FeedBlockAcrossAGap := by
  unfold Obligations.FeedBlockAcrossAGap
  intro l symbols s capture got bytes b hrun hphase hvalid hstate hne
  have hexec := exec_feedBlock_running hrun hphase hvalid hstate
  dsimp only at hexec
  by_cases hgap : b.header.seq = (s.link l).seq + 2 ∨ b.header.seq = (s.link l).seq + 3
  case pos =>
    obtain ⟨g, hg0, hg2, hseq⟩ : ∃ g, g ≠ 0 ∧ g ≤ 2 ∧ b.header.seq = (s.link l).seq + BitVec.ofNat 8 (g + 1) :=
      hgap.elim (fun h => ⟨1, by decide, by decide, h⟩) (fun h => ⟨2, by decide, by decide, h⟩)
    have hdiff : b.header.seq - (s.link l).seq = BitVec.ofNat 8 (g + 1) := by rw [hseq]; simp
    rw [((s.link l).seqStep_eq_iff _ (by omega)).mpr hseq, if_pos (by omega)] at hexec
    obtain ⟨h, hstatus, hrecords, hraised⟩ := takeLocked_bridges (b := b) hstate hg0 capture
    refine ⟨_, hexec, (if_pos hgap).mpr ?_⟩
    generalize ((s.received l).resume l).takeLocked l b capture (g + 1) = t at h hstatus hrecords hraised ⊢
    have hgapNat : (b.header.seq - (s.link l).seq).toNat - 1 = g := by
      rw [hdiff, BitVec.toNat_ofNat]
      omega
    have hwritten : (t.link l).written = (s.link l).written + 32 * (b.header.seq - (s.link l).seq).setWidth 32 := by
      rw [h.written, hdiff]
      bv_omega
    have htag : (t.link l).written - 32 = (s.link l).written + BitVec.ofNat 32 (32 * g) := by
      rw [h.written, BitVec.add_sub_cancel]
    dsimp only
    rw [hgapNat, htag]
    refine ⟨h.state, hstatus, hwritten, fun hle => h.concealed.trans (bump_iterate hle g), h.gapDeadline, hrecords,
      fun hhold => ⟨h.holdDeadline hhold, hraised hhold⟩, fun p σ hp hσ hring hframes => ?_⟩
    have hstamps := h.stamps σ hσ
    have hfaded := (Link.getD_fadedRing hring hp 0).1
    refine ⟨?_, hstamps, h.held, fun i => h.frame_kept hring hp hg2 hframes, ?_, fun f => h.frame_faded hfaded hg2 hframes,
      fun f => h.frame_before hring hp hg2 hframes⟩
    · exact (congrArg (fun q => q.1.map Stamp.shape) hstamps).trans (map_shape_foldl_stampEnters ..)
    · intro i hi
      rw [h.frame_concealed hfaded hg2 hframes hi]
      cases l <;> rfl
  case neg =>
    rw [if_neg (Link.seqStep_discarded hne hgap)] at hexec
    have hnot : ((s.received l).link l).state ≠ .search := by rcases hstate with h | h <;> simp [h]
    refine ⟨_, hexec, (if_neg hgap).mpr ?_⟩
    rw [State.link_enterSearch, State.link_received]
    refine ⟨rfl, rfl, ?_, rfl, fun q => ?_⟩
    · exact emptiedLink_cleared (s.link l).received _ _
    · rw [State.raisedAtAll_enterSearch hnot q, State.port_received]

end Sys2Proof.Machine
end

section
/-! SUPPORT. How a block that is laid out as R165 and R166 say is read: for O21. -/

namespace Sys2Proof.Machine

/-! ### Numbers -/

@[simp] theorem toNat_byteOf {v : Nat} (h : v < 256) : (byteOf v).toNat = v := by
  simp [byteOf, Nat.mod_eq_of_lt h]

theorem be16_bytes {v : Nat} (h : v < 65536) : be16 (byteOf (v / 256)) (byteOf v) = v := by
  simp only [be16, byteOf, BitVec.toNat_ofNat]
  omega

theorem readTransport_eq (b : Byte) :
    readTransport b =
      if b.toNat % 4 = 1 then some .play else if b.toNat % 4 = 2 then some .hold else none := by
  unfold readTransport
  split <;> simp_all

/-! ### The header (R2, R165) -/

/-- The tests of R6 on a header. -/
structure HeaderPasses (l : LinkId) (transport reel : Byte) (offset : Nat) (tracks records : Byte) : Prop where
  transport : transport.toNat % 4 = 1 ∨ transport.toNat % 4 = 2
  reel_pos : 1 ≤ reel.toNat
  reel_le : reel.toNat ≤ 15
  offset_le : offset ≤ 1999
  tracks_pos : 1 ≤ tracks.toNat
  tracks_le : tracks.toNat ≤ linkWidth l
  records_le : records.toNat ≤ 16

section
variable {l : LinkId} {transport reel o1 o0 tracks records : Byte}

theorem parseHeader_passes (h : HeaderPasses l transport reel (be16 o1 o0) tracks records) (seq f1 f0 : Byte)
    (rest : List Byte) :
    parseHeader l (marker l :: seq :: transport :: reel :: f1 :: f0 :: o1 :: o0 :: tracks :: records :: rest) =
      .ok (⟨seq, if transport.toNat % 4 = 1 then .play else .hold, ⟨reel.toNat, be16 f1 f0 * 2000 + be16 o1 o0⟩,
        tracks.toNat, records.toNat⟩, rest) := by
  have htransport : readTransport transport = some (if transport.toNat % 4 = 1 then .play else .hold) := by
    rw [readTransport_eq]
    rcases h.transport with h | h <;> simp [h]
  simp only [parseHeader, nextByte, htransport, ne_eq, not_true_eq_false, if_false]
  rw [if_neg (by have := h.reel_pos; have := h.reel_le; omega), if_neg (by have := h.offset_le; omega),
    if_neg (by have := h.tracks_pos; have := h.tracks_le; omega), if_neg (by have := h.records_le; omega)]

theorem parseHeader_fails (h : ¬ HeaderPasses l transport reel (be16 o1 o0) tracks records) (seq f1 f0 : Byte)
    (rest : List Byte) :
    parseHeader l (marker l :: seq :: transport :: reel :: f1 :: f0 :: o1 :: o0 :: tracks :: records :: rest) =
      .bad := by
  simp only [parseHeader, nextByte, readTransport_eq, ne_eq, not_true_eq_false, if_false]
  by_cases ht : transport.toNat % 4 = 1 ∨ transport.toNat % 4 = 2
  · have hsome : (if transport.toNat % 4 = 1 then some Transport.play
        else if transport.toNat % 4 = 2 then some .hold else none) =
        some (if transport.toNat % 4 = 1 then .play else .hold) := by rcases ht with h | h <;> simp [h]
    rw [hsome]
    dsimp only
    have hfails : reel.toNat < 1 ∨ 15 < reel.toNat ∨ 1999 < be16 o1 o0 ∨ tracks.toNat < 1 ∨
        linkWidth l < tracks.toNat ∨ 16 < records.toNat := by
      by_contra hn
      exact h ⟨ht, by omega, by omega, by omega, by omega, by omega, by omega⟩
    split_ifs
    case neg => omega
    all_goals rfl
  · rw [if_neg (not_or.mp ht).1, if_neg (not_or.mp ht).2]

end

/-- A block with another marker is malformed (R2, R6). -/
theorem parseHeader_other_marker {l : LinkId} {m : Byte} (h : m ≠ marker l) (rest : List Byte) :
    parseHeader l (m :: rest) = .bad := if_pos h

/-! ### Audio (R165) -/

/-- A sample read from its three bytes. -/
def sampleAt (bytes : List Byte) (n : Nat) : Int :=
  signed24 (bytes.getD (3 * n) 0) (bytes.getD (3 * n + 1) 0) (bytes.getD (3 * n + 2) 0)

theorem readSamples_eq {n : Nat} {bytes : List Byte} (h : 3 * n ≤ bytes.length) :
    readSamples n bytes = (List.range n).map (sampleAt bytes) := by
  induction n generalizing bytes with
  | zero => rfl
  | succ n ih =>
    match bytes, h with
    | a :: b :: c :: rest, h =>
      have hrest : 3 * n ≤ rest.length := by
        simp only [List.length_cons] at h
        omega
      rw [readSamples, ih hrest, List.range_succ_eq_map, List.map_cons, List.map_map]
      rfl

theorem readFrames_eq (width tracks n : Nat) (bytes : List Byte) :
    readFrames width tracks n bytes = (List.range n).map fun f =>
      readSamples tracks ((bytes.drop (3 * tracks * f)).take (3 * tracks)) ++ List.replicate (width - tracks) 0 := by
  induction n generalizing bytes with
  | zero => rfl
  | succ n ih =>
    rw [readFrames, ih, List.range_succ_eq_map, List.map_cons, List.map_map]
    simp only [Nat.mul_zero, List.drop_zero, List.drop_drop]
    congr 1
    refine List.map_congr_left fun f _ => ?_
    simp only [Function.comp, Nat.mul_succ, Nat.add_comm]

/-- A sample of a frame within the audio field. -/
theorem sampleAt_frame {tracks f t : Nat} (ht : t < tracks) {audio : List Byte}
    (h : 3 * (f * tracks + t) + 3 ≤ audio.length) (rest : List Byte) :
    sampleAt (((audio ++ rest).drop (3 * tracks * f)).take (3 * tracks)) t = sampleAt audio (f * tracks + t) := by
  have hget (k : Nat) (hk : k < 3) :
      (((audio ++ rest).drop (3 * tracks * f)).take (3 * tracks)).getD (3 * t + k) 0 =
        audio.getD (3 * (f * tracks + t) + k) 0 := by
    have hindex : 3 * tracks * f + (3 * t + k) = 3 * (f * tracks + t) + k := by ring
    rw [List.getD_eq_getElem?_getD, List.getD_eq_getElem?_getD, List.getElem?_take_of_lt (by omega), List.getElem?_drop,
      hindex, List.getElem?_append_left (by omega)]
  have h0 := hget 0 (by decide)
  rw [Nat.add_zero, Nat.add_zero] at h0
  rw [sampleAt, h0, hget 1 (by decide), hget 2 (by decide), sampleAt]

/-- A run of values widened with 0. -/
theorem map_range_widened {m n : Nat} (h : m ≤ n) (f : Nat → Int) :
    ((List.range n).map fun t => if t < m then f t else 0) = (List.range m).map f ++ List.replicate (n - m) 0 := by
  obtain ⟨k, rfl⟩ := Nat.exists_eq_add_of_le h
  rw [List.range_add, List.map_append, Nat.add_sub_cancel_left, List.map_map]
  congr 1
  · exact List.map_congr_left fun t ht => if_pos (List.mem_range.mp ht)
  · rw [List.eq_replicate_iff]
    simp

/-- The frames of an audio field, each widened with 0 to the store's frame (R10, R165). -/
theorem parseAudio_eq {l : LinkId} {tracks : Nat} (ht : tracks ≤ linkWidth l) {audio : List Byte}
    (h : audio.length = 96 * tracks) (rest : List Byte) :
    parseAudio l tracks (audio ++ rest) = .ok ((List.range 32).map fun f => (List.range (linkWidth l)).map fun t =>
      if t < tracks then sampleAt audio (f * tracks + t) else 0, rest) := by
  have hlen : ¬ (audio ++ rest).length < 96 * tracks := by
    rw [List.length_append]
    omega
  rw [parseAudio, if_neg hlen, readFrames_eq, ← h, List.drop_left]
  refine congrArg (fun x => Parsed.ok (x, rest)) (List.map_congr_left fun f hf => ?_)
  have hf : f < 32 := List.mem_range.mp hf
  have hframe : 3 * tracks * f + 3 * tracks ≤ audio.length := by
    rw [h]
    nlinarith
  rw [map_range_widened ht, readSamples_eq (by rw [List.length_take, List.length_drop, List.length_append]; omega)]
  refine congrArg (· ++ _) (List.map_congr_left fun t ht => ?_)
  refine sampleAt_frame (List.mem_range.mp ht) ?_ rest
  have ht : t < tracks := List.mem_range.mp ht
  rw [h]
  nlinarith

/-! ### Metadata records (R3, R166) -/

theorem parseList_wireList {list : List Contribution} (h : ∀ c ∈ list, c.bus < 256 ∧ c.weight < 65536)
    (rest : List Byte) :
    parseList list.length (wireList list ++ rest) = .ok (list, rest) := by
  induction list with
  | nil => rfl
  | cons c list ih =>
    obtain ⟨hbus, hweight⟩ := h c List.mem_cons_self
    have htail := ih fun d hd => h d (List.mem_cons_of_mem c hd)
    simp only [wireList, List.flatMap_cons, wire_one, wire_two, bytes16, List.cons_append, List.nil_append,
      List.length_cons, parseList, nextByte, toNat_byteOf hbus, be16_bytes hweight] at htail ⊢
    rw [htail]
    rfl

/-- A list of a length that its record cannot have makes the record malformed (R3, R6). -/
theorem read_of_list {list : List Contribution} {x : Parsed (MetaRecord × List Byte)} {r : MetaRecord × List Byte}
    (h : x = if list.length < 1 ∨ 8 < list.length then .bad else .ok r) :
    (1 ≤ list.length ∧ list.length ≤ 8 → x = .ok r) ∧ (¬ (1 ≤ list.length ∧ list.length ≤ 8) → x = .bad) :=
  ⟨fun hl => by rw [h, if_neg (by omega)], fun hl => by rw [h, if_pos (by omega)]⟩

/-- A record that a block can carry is read as itself when it is lawful, and is malformed otherwise (R3, R166). -/
theorem parseRecord_wireRecord {r : MetaRecord} (hc : Carried r) (rest : List Byte) :
    (r.Lawful → parseRecord (wireRecord r ++ rest) = .ok (r, rest)) ∧
      (¬ r.Lawful → parseRecord (wireRecord r ++ rest) = .bad) := by
  cases r with
  | slotSet slot track gain ramp list =>
    obtain ⟨hslot, htrack, hgain, hramp, hlen, hlist⟩ := hc
    have hcount : list.length < 256 := by omega
    have hbytes : 6 + 3 * list.length < 256 := by omega
    refine read_of_list ?_
    simp [wireRecord, parseRecord, nextByte, bytes16, hslot, htrack, be16_bytes hgain, hramp, hcount, hbytes,
      parseList_wireList hlist, Parsed.bind]
  | slotGain slot gain ramp =>
    obtain ⟨hslot, hgain, hramp⟩ := hc
    refine ⟨fun _ => ?_, fun h => absurd trivial h⟩
    simp [wireRecord, parseRecord, nextByte, bytes16, hslot, be16_bytes hgain, hramp]
  | slotMove slot list =>
    obtain ⟨hslot, hlen, hlist⟩ := hc
    have hcount : list.length < 256 := by omega
    have hbytes : 2 + 3 * list.length < 256 := by omega
    refine read_of_list ?_
    simp [wireRecord, parseRecord, nextByte, hslot, hcount, hbytes, parseList_wireList hlist, Parsed.bind]
  | slotRelease slot ramp =>
    obtain ⟨hslot, hramp⟩ := hc
    refine ⟨fun _ => ?_, fun h => absurd trivial h⟩
    simp [wireRecord, parseRecord, nextByte, hslot, hramp]
  | sceneRelease ramp =>
    refine ⟨fun _ => ?_, fun h => absurd trivial h⟩
    simp [wireRecord, parseRecord, nextByte, toNat_byteOf (show ramp < 256 from hc)]

/-- The records of a metadata field are read as themselves when all are lawful; one that is not makes the block
malformed. -/
theorem parseRecords_wireRecords {records : List MetaRecord} (hc : ∀ r ∈ records, Carried r) (rest : List Byte) :
    ((∀ r ∈ records, r.Lawful) →
        parseRecords records.length (records.flatMap wireRecord ++ rest) = .ok (records, rest)) ∧
      (¬ (∀ r ∈ records, r.Lawful) →
        parseRecords records.length (records.flatMap wireRecord ++ rest) = .bad) := by
  induction records with
  | nil => exact ⟨fun _ => rfl, fun h => absurd (List.forall_mem_nil _) h⟩
  | cons r records ih =>
    rw [List.forall_mem_cons] at hc
    obtain ⟨hlawful, hunlawful⟩ := parseRecord_wireRecord hc.1 (records.flatMap wireRecord ++ rest)
    obtain ⟨hall, hsome⟩ := ih hc.2
    rw [List.forall_mem_cons, List.flatMap_cons, List.append_assoc, List.length_cons, parseRecords]
    by_cases hr : r.Lawful
    · exact ⟨fun h => by simp only [hlawful hr, Parsed.bind, hall h.2],
        fun h => by simp only [hlawful hr, Parsed.bind, hsome fun hrest => h ⟨hr, hrest⟩]⟩
    · exact ⟨fun h => absurd h.1 hr, fun _ => by rw [hunlawful hr]; rfl⟩

/-! ### Trailer and check (R4, R165) -/

/-- The health that a status word's code names. -/
def healthOf (code : Nat) : Health := match code with | 0 => .ok | 1 => .degraded | _ => .fault

/-- The pull that a status word's code names. -/
def pullOf (code : Nat) : Pull := match code with | 0 => .unpulled | 1 => .down | _ => .up

theorem readHealth_eq (b : Byte) : readHealth b = if b.toNat % 4 = 3 then none else some (healthOf (b.toNat % 4)) := by
  unfold readHealth
  split
  all_goals simp_all [healthOf]
  omega

theorem readPull_eq (b : Byte) :
    readPull b = if b.toNat / 4 % 4 = 3 then none else some (pullOf (b.toNat / 4 % 4)) := by
  unfold readPull
  split
  all_goals simp_all [pullOf]
  omega

/-- A block from its marker to its status word, and the bytes behind that. -/
def parseBody (l : LinkId) (bytes : List Byte) : Parsed (FeedBlock × List Byte) :=
  (parseHeader l bytes).bind fun (h, r) =>
  (parseAudio l h.tracks r).bind fun (frames, r) =>
  (parseRecords h.records r).bind fun (records, r) =>
  nextByte r fun _ r =>
  nextByte r fun status r =>
  match readHealth status, readPull status with
  | some health, some pull => .ok (⟨h, frames, records, health, pull⟩, r)
  | _, _ => .bad

/-- The block check behind the bytes that it is formed over (R4). -/
def parseCheck (b : FeedBlock) (checked r : List Byte) : Parsed FeedBlock :=
  nextByte r fun c1 r =>
  nextByte r fun c0 _ =>
  if (crc16 checked).toNat ≠ be16 c1 c0 then .bad else .ok b

/-- A block is its body and its check. -/
theorem parseBlock_eq (l : LinkId) (bytes : List Byte) :
    parseBlock l bytes =
      (parseBody l bytes).bind fun x => parseCheck x.1 (bytes.take (bytes.length - x.2.length)) x.2 := by
  unfold parseBlock parseBody parseCheck
  cases parseHeader l bytes with
  | more => rfl
  | bad => rfl
  | ok h =>
    obtain ⟨h, r⟩ := h
    simp only [Parsed.bind]
    cases parseAudio l h.tracks r with
    | more => rfl
    | bad => rfl
    | ok frames =>
      obtain ⟨frames, r⟩ := frames
      dsimp only
      cases parseRecords h.records r with
      | more => rfl
      | bad => rfl
      | ok records =>
        obtain ⟨records, r⟩ := records
        match r with
        | [] => rfl
        | [_] => rfl
        | _ :: status :: r =>
          simp only [nextByte]
          cases readHealth status <;> cases readPull status <;> rfl

theorem parseCheck_wire (b : FeedBlock) (checked : List Byte) (check : BitVec 16) :
    parseCheck b checked (wire 2 check.toNat) = if crc16 checked = check then .ok b else .bad := by
  simp only [wire_two, bytes16, parseCheck, nextByte, be16_bytes check.isLt, ne_eq, ← BitVec.toNat_inj]
  split_ifs <;> rfl

/-! ### The whole block -/

section
variable {l : LinkId} {transport reel o1 o0 tracks : Byte} {audio : List Byte} {records : List MetaRecord}

/-- A block's bytes from its marker to its status word (R165). -/
def bodyBytes (l : LinkId) (seq transport reel f1 f0 o1 o0 tracks : Byte) (audio : List Byte)
    (records : List MetaRecord) (status1 status0 : Byte) : List Byte :=
  [marker l, seq, transport, reel, f1, f0, o1, o0, tracks, byteOf records.length] ++ audio ++
    records.flatMap wireRecord ++ [status1, status0]

/-- The block that a laid out body carries. -/
def carriedBlock (l : LinkId) (seq transport reel f1 f0 o1 o0 tracks : Byte) (audio : List Byte)
    (records : List MetaRecord) (status0 : Byte) : FeedBlock where
  header := ⟨seq, if transport.toNat % 4 = 1 then .play else .hold, ⟨reel.toNat, be16 f1 f0 * 2000 + be16 o1 o0⟩,
    tracks.toNat, records.length⟩
  frames := (List.range 32).map fun f => (List.range (linkWidth l)).map fun t =>
    if t < tracks.toNat then sampleAt audio (f * tracks.toNat + t) else 0
  records := records
  health := healthOf (status0.toNat % 4)
  pull := pullOf (status0.toNat / 4 % 4)

/-- The tests of R6 on a body. -/
def BodyPasses (l : LinkId) (transport reel : Byte) (offset : Nat) (tracks : Byte) (records : List MetaRecord)
    (status0 : Byte) : Prop :=
  HeaderPasses l transport reel offset tracks (byteOf records.length) ∧ (∀ r ∈ records, r.Lawful) ∧
    status0.toNat % 4 ≠ 3 ∧ status0.toNat / 4 % 4 ≠ 3

/-- A laid out body is read as the block it carries when it passes the tests, and is malformed otherwise (R6, R165). -/
theorem parseBody_bodyBytes (hlen : records.length < 256) (hc : ∀ r ∈ records, Carried r)
    (haudio : audio.length = 96 * tracks.toNat) (seq f1 f0 status1 status0 : Byte) (rest : List Byte) :
    let read := parseBody l
      (bodyBytes l seq transport reel f1 f0 o1 o0 tracks audio records status1 status0 ++ rest)
    (BodyPasses l transport reel (be16 o1 o0) tracks records status0 →
      read = .ok (carriedBlock l seq transport reel f1 f0 o1 o0 tracks audio records status0, rest)) ∧
    (¬ BodyPasses l transport reel (be16 o1 o0) tracks records status0 → read = .bad) := by
  intro read
  obtain ⟨hlawful, hunlawful⟩ := parseRecords_wireRecords hc (status1 :: status0 :: rest)
  have hbytes : bodyBytes l seq transport reel f1 f0 o1 o0 tracks audio records status1 status0 ++ rest =
      marker l :: seq :: transport :: reel :: f1 :: f0 :: o1 :: o0 :: tracks :: byteOf records.length ::
        (audio ++ (records.flatMap wireRecord ++ (status1 :: status0 :: rest))) := by simp [bodyBytes]
  by_cases hheader : HeaderPasses l transport reel (be16 o1 o0) tracks (byteOf records.length)
  case neg =>
    refine ⟨fun h => absurd h.1 hheader, fun _ => ?_⟩
    simp only [read, hbytes, parseBody, parseHeader_fails hheader, Parsed.bind]
  case pos =>
    by_cases hr : ∀ r ∈ records, r.Lawful
    case neg =>
      refine ⟨fun h => absurd h.2.1 hr, fun _ => ?_⟩
      simp only [read, hbytes, parseBody, parseHeader_passes hheader, Parsed.bind, toNat_byteOf hlen,
        parseAudio_eq hheader.tracks_le haudio, hunlawful hr]
    case pos =>
      simp only [read, hbytes, parseBody, parseHeader_passes hheader, Parsed.bind, toNat_byteOf hlen,
        parseAudio_eq hheader.tracks_le haudio, hlawful hr, nextByte, readHealth_eq, readPull_eq]
      refine ⟨fun ⟨_, _, hhealth, hpull⟩ => by rw [if_neg hhealth, if_neg hpull]; rfl, fun h => ?_⟩
      by_cases hhealth : status0.toNat % 4 = 3
      · rw [if_pos hhealth]
      · rw [if_neg hhealth, if_pos (by by_contra hpull; exact h ⟨hheader, hr, hhealth, hpull⟩)]

/-- A laid out block is read as the block it carries when it passes the tests and its check agrees, and is malformed
otherwise (R4, R6, R165). -/
theorem parseBlock_bodyBytes (hlen : records.length < 256) (hc : ∀ r ∈ records, Carried r)
    (haudio : audio.length = 96 * tracks.toNat) (seq f1 f0 status1 status0 : Byte) (check : BitVec 16) :
    let body := bodyBytes l seq transport reel f1 f0 o1 o0 tracks audio records status1 status0
    (BodyPasses l transport reel (be16 o1 o0) tracks records status0 ∧ crc16 body = check →
      parseBlock l (body ++ wire 2 check.toNat) =
        .ok (carriedBlock l seq transport reel f1 f0 o1 o0 tracks audio records status0)) ∧
    (¬ (BodyPasses l transport reel (be16 o1 o0) tracks records status0 ∧ crc16 body = check) →
      parseBlock l (body ++ wire 2 check.toNat) = .bad) := by
  intro body
  obtain ⟨hpasses, hfails⟩ := parseBody_bodyBytes (l := l) (transport := transport) (reel := reel) (o1 := o1) (o0 := o0)
    hlen hc haudio seq f1 f0 status1 status0 (wire 2 check.toNat)
  rw [parseBlock_eq]
  by_cases hp : BodyPasses l transport reel (be16 o1 o0) tracks records status0
  case neg => exact ⟨fun h => absurd h.1 hp, fun _ => by rw [hfails hp]; rfl⟩
  case pos =>
    simp only [body, hpasses hp, Parsed.bind, List.length_append, Nat.add_sub_cancel, List.take_left, parseCheck_wire]
    exact ⟨fun h => if_pos h.2, fun h => if_neg fun hcheck => h ⟨hp, hcheck⟩⟩

end

end Sys2Proof.Machine
end

section
/-! SUPPORT. Bytes that arrive behind a block, symbols, and the receiver's phases (R1, R6, R7): O21. -/

namespace Sys2Proof.Machine

/-! ### What has been read stands whatever follows (R6) -/

/-- What was read, with more bytes behind it. -/
def Parsed.behind {α : Type} (rest : List Byte) : Parsed (α × List Byte) → Parsed (α × List Byte)
  | .more => .more
  | .bad => .bad
  | .ok (a, r) => .ok (a, r ++ rest)

/-- A reader is steady when bytes that follow leave what it has come to. -/
def Steady {α : Type} (read : List Byte → Parsed (α × List Byte)) : Prop :=
  ∀ bytes rest, read bytes ≠ .more → read (bytes ++ rest) = (read bytes).behind rest

namespace Steady

variable {α β : Type}

theorem bad : Steady fun _ => (.bad : Parsed (α × List Byte)) := fun _ _ _ => rfl

theorem ok (a : α) : Steady fun r => .ok (a, r) := fun _ _ _ => rfl

theorem nextByte {k : Byte → List Byte → Parsed (α × List Byte)} (h : ∀ b, Steady (k b)) :
    Steady fun bytes => Machine.nextByte bytes k := by
  intro bytes rest hmore
  cases bytes with
  | nil => exact absurd rfl hmore
  | cons b bytes => exact h b bytes rest hmore

theorem ite {p : Prop} [Decidable p] {x y : List Byte → Parsed (α × List Byte)} (hx : Steady x) (hy : Steady y) :
    Steady fun bytes => if p then x bytes else y bytes := by
  by_cases hp : p
  · simpa only [if_pos hp] using hx
  · simpa only [if_neg hp] using hy

theorem bind {read : List Byte → Parsed (α × List Byte)} {k : α × List Byte → Parsed (β × List Byte)}
    (hread : Steady read) (hk : ∀ a, Steady fun r => k (a, r)) : Steady fun bytes => (read bytes).bind k := by
  intro bytes rest hmore
  have h := hread bytes rest
  dsimp only at hmore ⊢
  cases hr : read bytes with
  | more => simp [hr, Parsed.bind] at hmore
  | bad =>
    rw [h (by simp [hr]), hr]
    rfl
  | ok x =>
    rw [hr] at hmore
    rw [h (by simp [hr]), hr]
    exact hk x.1 x.2 rest hmore

end Steady

theorem steady_parseHeader (l : LinkId) : Steady (parseHeader l) := by
  refine .nextByte fun m => .ite .bad (.nextByte fun seq => .nextByte fun t => ?_)
  split
  · exact .bad
  · exact .nextByte fun reel => .ite .bad <| .nextByte fun f1 => .nextByte fun f0 => .nextByte fun o1 =>
      .nextByte fun o0 => .ite .bad <| .nextByte fun tracks => .ite .bad <| .nextByte fun records => .ite .bad (.ok _)

theorem readFrames_append {width tracks n : Nat} {bytes : List Byte} (h : 3 * tracks * n ≤ bytes.length)
    (rest : List Byte) : readFrames width tracks n (bytes ++ rest) = readFrames width tracks n bytes := by
  rw [readFrames_eq, readFrames_eq]
  refine List.map_congr_left fun f hf => ?_
  have hframe : 3 * tracks * f + 3 * tracks ≤ bytes.length := by
    have := Nat.mul_le_mul_left (3 * tracks) (Nat.succ_le_of_lt (List.mem_range.mp hf))
    rw [Nat.mul_succ] at this
    omega
  rw [List.drop_append_of_le_length (by omega), List.take_append_of_le_length (by rw [List.length_drop]; omega)]

theorem steady_parseAudio (l : LinkId) (tracks : Nat) : Steady (parseAudio l tracks) := by
  intro bytes rest hmore
  have hlen : 96 * tracks ≤ bytes.length := by
    by_contra hlt
    exact hmore (if_pos (by omega))
  rw [parseAudio, parseAudio, if_neg (by rw [List.length_append]; omega), if_neg (by omega),
    readFrames_append (by omega), List.drop_append_of_le_length hlen]
  rfl

theorem steady_parseList (n : Nat) : Steady (parseList n) := by
  induction n with
  | zero => exact .ok _
  | succ n ih =>
    exact .nextByte fun bus => .nextByte fun w1 => .nextByte fun w0 => .bind ih fun list => .ok _

theorem steady_parseRecord : Steady parseRecord := by
  refine .nextByte fun kind => .ite .bad <| .nextByte fun len => ?_
  split
  · exact .nextByte fun slot => .nextByte fun track => .nextByte fun g1 => .nextByte fun g0 => .nextByte fun ramp =>
      .nextByte fun n => .ite .bad <| .bind (steady_parseList _) fun list => .ok _
  · exact .ite .bad <| .nextByte fun slot => .nextByte fun g1 => .nextByte fun g0 => .nextByte fun ramp => .ok _
  · exact .nextByte fun slot => .nextByte fun n => .ite .bad <| .bind (steady_parseList _) fun list => .ok _
  · exact .ite .bad <| .nextByte fun slot => .nextByte fun ramp => .ok _
  · exact .ite .bad <| .nextByte fun ramp => .ok _

theorem steady_parseRecords (n : Nat) : Steady (parseRecords n) := by
  induction n with
  | zero => exact .ok _
  | succ n ih => exact .bind steady_parseRecord fun r => .bind ih fun records => .ok _

theorem steady_parseBody (l : LinkId) : Steady (parseBody l) := by
  refine .bind (steady_parseHeader l) fun h => .bind (steady_parseAudio l _) fun frames =>
    .bind (steady_parseRecords _) fun records => .nextByte fun _ => .nextByte fun status => ?_
  split
  · exact .ok _
  · exact .bad

/-- A check that is read stands whatever follows. -/
theorem parseCheck_append {b : FeedBlock} {checked r : List Byte} (h : parseCheck b checked r ≠ .more)
    (rest : List Byte) : parseCheck b checked (r ++ rest) = parseCheck b checked r := by
  match r, h with
  | [], h => exact absurd rfl h
  | [_], h => exact absurd rfl h
  | _ :: _ :: _, _ => rfl

/-- What a block is found to be stands whatever follows (R6). -/
theorem parseBlock_append {l : LinkId} {bytes : List Byte} (h : parseBlock l bytes ≠ .more) (rest : List Byte) :
    parseBlock l (bytes ++ rest) = parseBlock l bytes := by
  rw [parseBlock_eq] at h ⊢
  rw [parseBlock_eq]
  have hbody := steady_parseBody l bytes rest
  cases hr : parseBody l bytes with
  | more => simp [hr, Parsed.bind] at h
  | bad =>
    rw [hbody (by simp [hr]), hr]
    rfl
  | ok x =>
    rw [hr] at h
    rw [hbody (by simp [hr]), hr]
    have hchecked : (bytes ++ rest).take ((bytes ++ rest).length - (x.2 ++ rest).length) =
        bytes.take (bytes.length - x.2.length) := by
      rw [List.length_append, List.length_append, Nat.add_sub_add_right, List.take_append_of_le_length (by omega)]
    show parseCheck x.1 ((bytes ++ rest).take ((bytes ++ rest).length - (x.2 ++ rest).length)) (x.2 ++ rest) = _
    rw [hchecked, parseCheck_append h]
    rfl

/-! ### Symbols (R1) -/

theorem dataRun_data (bytes : List Byte) : dataRun (bytes.map .data) = (bytes, false) := by
  induction bytes with
  | nil => rfl
  | cons b bytes ih => rw [List.map_cons, dataRun, ih]

theorem dataRun_broken {broken : Symbol} (h : broken = .idle ∨ broken = .undecodable) (bytes : List Byte)
    (rest : List Symbol) : dataRun (bytes.map .data ++ broken :: rest) = (bytes, true) := by
  induction bytes with
  | nil => rcases h with rfl | rfl <;> rfl
  | cons b bytes ih => rw [List.map_cons, List.cons_append, dataRun, ih]

/-- What a run of symbols makes of a block: what its data bytes are read as, and malformed if they are broken off. -/
theorem assemble_of_run {symbols : List Symbol} {bytes : List Byte} {broken : Bool}
    (h : dataRun symbols = (bytes, broken)) (l : LinkId) (got : List Byte) :
    (assemble l got symbols).2 = got ++ bytes ∧
      (parseBlock l (got ++ bytes) = .more → (assemble l got symbols).1 = if broken = true then .bad else .more) ∧
      (parseBlock l (got ++ bytes) ≠ .more → (assemble l got symbols).1 = parseBlock l (got ++ bytes)) := by
  unfold assemble
  dsimp only
  rw [h]
  dsimp only
  cases parseBlock l (got ++ bytes) <;> cases broken <;> simp

/-! ### The receiver's phases (R1, R7) -/

section
variable {l : LinkId} {b : FeedBlock} {capture : Tick} {s : State}

theorem Link.phase_settled (x : Link) (seq : Seq) (done : Nat) : (x.settled seq capture done).phase = x.phase := by
  obtain ⟨_, _, _, _, _, _, _, _, _, _, _, heq⟩ := x.settled_frame seq capture done
  rw [heq]

theorem Link.phase_reentered (x : Link) : (x.reentered l b capture).phase = x.phase := by
  unfold Link.reentered
  dsimp only
  split <;> rfl

theorem State.phase_judgeRun : ((s.judgeRun l b capture).link l).phase = (s.link l).phase := by
  cases h : ((s.link l).grown b.header.seq capture).measure b.header.seq capture with
  | paused => rw [State.link_judgeRun_paused h]; rfl
  | fault => rw [State.link_judgeRun_fault h, Link.phase_reentered]; rfl
  | accepted offset =>
    by_cases hrun : 9 ≤ (s.link l).run + 1
    · rw [State.link_judgeRun_lock h hrun]; rfl
    · rw [State.link_judgeRun_accepted h hrun]; rfl

/-- A running link's receiver is in HUNT after a block in step or across a gap. -/
theorem State.phase_takeLocked (hstate : (s.link l).state = .locked ∨ (s.link l).state = .holdover) {d : Nat}
    (hd : d ≠ 0) : ((((s.received l).resume l).takeLocked l b capture d).link l).phase = .hunt := by
  obtain ⟨g, rfl⟩ := Nat.exists_eq_succ_of_ne_zero hd
  by_cases hg : g = 0
  · subst hg
    rw [State.takeLocked, if_pos rfl, State.handOnLocked_eq, State.link_settleLocked, Link.phase_settled,
      State.link_handOn, State.link_resume (by simpa using hstate), State.link_received]
    rfl
  · exact (takeLocked_bridges hstate hg capture).1.phase

/-- A valid block leaves its receiver in HUNT, whatever its link's state (R1). -/
theorem State.phase_takeValid (d : Nat) : (((s.received l).takeValid l b capture d).link l).phase = .hunt := by
  have hreceived : ((s.received l).link l).phase = .hunt := by rw [State.link_received]; rfl
  have hsearch : (((s.received l).enterSearch l).link l).phase = .hunt := by
    rw [State.link_enterSearch]
    exact hreceived
  have hrunning (h : (s.link l).state = .locked ∨ (s.link l).state = .holdover) :
      ((if 1 ≤ d ∧ d ≤ 3 then ((s.received l).resume l).takeLocked l b capture d
        else (s.received l).enterSearch l).link l).phase = .hunt := by
    split
    · exact State.phase_takeLocked h (by omega)
    · exact hsearch
  cases hstate : (s.link l).state with
  | disabled =>
    simp only [State.takeValid, State.link_received, Link.state_received, hstate]
    rfl
  | search =>
    simp only [State.takeValid, State.link_received, Link.state_received, hstate, State.link_beginRun]
    rw [State.link_setLinkState, State.link_received]
    rfl
  | acquire =>
    simp only [State.takeValid, State.link_received, Link.state_received, hstate]
    split
    · rw [State.extendRun_eq, State.phase_judgeRun, State.link_handOn]
      exact hreceived
    · rw [State.link_beginRun, State.link_onLink_self]
      exact hreceived
  | locked =>
    simp only [State.takeValid, State.link_received, Link.state_received, hstate]
    exact hrunning (.inl hstate)
  | holdover =>
    simp only [State.takeValid, State.link_received, Link.state_received, hstate]
    exact hrunning (.inr hstate)

end

/-- A malformed block dropped: counted, its receiver in HUNT; an ACQUIRE link enters SEARCH, and of any other link
nothing else changes (R7). -/
theorem dropMalformed_effect (l : LinkId) (s : State) :
    let t := s.dropMalformed l
    (t.link l).phase = .hunt ∧ (t.link l).counters = (s.link l).malformed.counters ∧
      ((s.link l).state ≠ .acquire →
        t = s.setLink l { s.link l with phase := .hunt, counters := (t.link l).counters }) ∧
      ((s.link l).state = .acquire →
        (t.link l).state = .search ∧ EmptiedLink (s.link l) (t.link l) ∧ RaisedAtAll .linkState s t) := by
  by_cases hacq : (s.link l).state = .acquire
  · have hlink : (s.dropMalformed l).link l = { (s.link l).malformed.cleared with state := .search } := by
      simp [State.dropMalformed_acquire hacq]
    refine ⟨by rw [hlink]; rfl, by rw [hlink]; rfl, fun h => absurd hacq h, fun _ => ⟨by rw [hlink], ?_, fun q => ?_⟩⟩
    · rw [hlink]
      exact emptiedLink_cleared (s.link l).malformed _ _
    · simp [State.dropMalformed_acquire hacq, State.port_enterSearch, Link.malformed, hacq]
  · rw [State.dropMalformed_other hacq]
    refine ⟨by simp [Link.malformed], by simp, fun _ => ?_, fun h => absurd h hacq⟩
    cases l <;> rfl

/-- Settles O21: a block is what its bytes are read as (`parseBlock_bodyBytes`, `parseBlock_append`), and what it is found
to be goes by its receiver's phase and its link's state. -/
theorem feedBlockMalformedOrUnfinished : Obligations.FeedBlockMalformedOrUnfinished := by
  unfold Obligations.FeedBlockMalformedOrUnfinished
  refine ⟨?phases, ?layout, ?marker, ?kind, ?length, ?set, ?move, ?data, ?broken,
    fun l bytes rest h => parseBlock_append h rest, crc16_eq_wireCheck, ?outside⟩
  case phases =>
    intro l symbols s hrun
    refine ⟨_, rfl, ?_⟩
    simp only [if_pos hrun]
    cases hphase : (s.link l).phase with
    | off => rfl
    | hunt => rfl
    | assemble capture got =>
      dsimp only
      rcases hfound : assemble l got symbols with ⟨_ | _ | b, bytes⟩
      · cases l <;> rfl
      · obtain ⟨hhunt, hcounters, hother, hsearch⟩ := dropMalformed_effect l s
        refine ⟨hhunt, hcounters, ?_⟩
        split
        · exact hsearch ‹_›
        · exact hother ‹_›
      · dsimp only
        rw [State.acceptBlock_eq]
        exact State.phase_takeValid _
  case layout =>
    intro l seq transport reel tracks status1 status0 frame offset audio records check hlen hc haudio width body sample
      passes
    have hwidth : width = linkWidth l := by cases l <;> rfl
    have hbody : body = bodyBytes l seq transport reel (byteOf (frame.toNat / 256)) (byteOf frame.toNat)
        (byteOf (offset.toNat / 256)) (byteOf offset.toNat) tracks audio records status1 status0 := by
      cases l <;> simp [body, bodyBytes, bytes16, Machine.marker]
    obtain ⟨hok, hbad⟩ := parseBlock_bodyBytes (l := l) (transport := transport) (reel := reel)
      (o1 := byteOf (offset.toNat / 256)) (o0 := byteOf offset.toNat) hlen hc haudio seq (byteOf (frame.toNat / 256))
      (byteOf frame.toNat) status1 status0 check
    rw [← hbody, be16_bytes offset.isLt] at hok hbad
    have hpasses : passes ↔
        BodyPasses l transport reel offset.toNat tracks records status0 ∧ crc16 body = check := by
      have hcount := toNat_byteOf hlen
      constructor
      · rintro ⟨ht, hreel, hreel', hoffset, htracks, htracks', hrecords, hlawful, hhealth, hpull, hcheck⟩
        exact ⟨⟨⟨ht, hreel, hreel', hoffset, htracks, hwidth ▸ htracks', by omega⟩, hlawful, hhealth, hpull⟩, hcheck⟩
      · rintro ⟨⟨⟨ht, hreel, hreel', hoffset, htracks, htracks', hrecords⟩, hlawful, hhealth, hpull⟩, hcheck⟩
        exact ⟨ht, hreel, hreel', hoffset, htracks, hwidth ▸ htracks', by omega, hlawful, hhealth, hpull, hcheck⟩
    refine ⟨fun h => (hok (hpasses.mp h)).trans ?_, fun h => hbad (mt hpasses.mpr h)⟩
    rw [hwidth, carriedBlock, be16_bytes frame.isLt, be16_bytes offset.isLt]
    rfl
  case marker =>
    intro l m rest hm
    have hmarker : m ≠ marker l := by cases l <;> exact hm
    rw [parseBlock_eq, parseBody, parseHeader_other_marker hmarker]
    rfl
  case kind =>
    intro kind rest hk
    exact if_pos (by omega)
  case length =>
    intro kind len rest h
    have hbytes {n : Nat} (hn : n < 256) (h : len ≠ BitVec.ofNat 8 n) : len.toNat ≠ n := fun e =>
      h (BitVec.eq_of_toNat_eq (by rw [e, BitVec.toNat_ofNat, Nat.mod_eq_of_lt hn]))
    rcases h with ⟨rfl, h⟩ | ⟨rfl, h⟩ | ⟨rfl, h⟩
    · exact if_pos (hbytes (by decide) h)
    · exact if_pos (hbytes (by decide) h)
    · exact if_pos (hbytes (by decide) h)
  case set =>
    intro len slot track gain1 gain0 ramp n rest h
    exact if_pos (.inr (.inr h))
  case move =>
    intro len slot n rest h
    exact if_pos (.inr (.inr h))
  case data =>
    intro l got bytes
    obtain ⟨hread, hmore, hfound⟩ := assemble_of_run (dataRun_data bytes) l got
    refine Prod.ext ?_ hread
    by_cases h : parseBlock l (got ++ bytes) = .more
    · rw [hmore h, h]
      rfl
    · exact hfound h
  case broken =>
    intro l got bytes broken rest hbroken
    exact assemble_of_run (dataRun_broken hbroken bytes rest) l got
  case outside =>
    intro l symbols s hrun
    rw [exec_feedBlock, execFeedBlock, if_neg hrun]

end Sys2Proof.Machine
end

section
/-! SUPPORT. The four reads that follow the block end (R94, R124, R125, R161), and their bytes (R164): O49. -/

namespace Sys2Proof.Machine

/-! ### An answer that follows the block end (log 7) -/

/-- An answer that is held and marked to follow the block end changes its port alone. -/
theorem State.answeredLive (p : PortId) (r : Request) (code : Byte) (payload : List Byte) (s : State) :
    let t := (s.answer p code .ok payload).setLive p r
    t = s.withPortsOf t ∧ OnlyPort p
      { s.port p with waiting := none, due := false, response := some ⟨.ok, code, payload⟩, live := some r } s t := by
  refine ⟨by cases p <;> rfl, ?_, fun q hq => ?_⟩
  · rw [State.setLive, State.port_onPort_self, State.port_answer, if_pos rfl]
  · rw [State.setLive, State.port_onPort, if_neg hq, State.port_answer, if_neg hq]

/-- What a read answers is formed from other parts of the state than the ports and the block end. -/
theorem State.livePayload_congr (p : PortId) (r : Request) (s t : State) (o : Bool) :
    ({ s.withPortsOf t with blockEndOpen := o } : State).livePayload p r = s.livePayload p r := by
  cases r <;> rfl

theorem State.renderLive_frame (q : PortId) (s : State) : s.renderLive q = s.withPortsOf (s.renderLive q) := by
  unfold State.renderLive
  split
  · rfl
  · cases q <;> rfl

@[simp] theorem State.livePayload_renderLive (p q : PortId) (r : Request) (s : State) :
    (s.renderLive q).livePayload p r = s.livePayload p r := by
  rw [State.renderLive_frame]
  exact State.livePayload_congr p r s _ s.blockEndOpen

theorem State.port_renderLive_of_ne {p q : PortId} (h : q ≠ p) (s : State) : (s.renderLive p).port q = s.port q := by
  unfold State.renderLive
  split
  · rfl
  · rw [State.port_onPort, if_neg h]

theorem State.port_renderLive_of_live {p : PortId} {r : Request} {s : State} (h : (s.port p).live = some r) :
    (s.renderLive p).port p =
      { s.port p with response := some ⟨.ok, requestCode r, s.livePayload p r⟩, live := none } := by
  simp only [State.renderLive, h, State.port_onPort_self]

/-- The three ports' copies are formed from the same state, whatever their order. -/
theorem State.port_renderAll {p : PortId} {r : Request} {s : State} (h : (s.port p).live = some r) :
    (((s.renderLive .A).renderLive .B).renderLive .C).port p =
      { s.port p with response := some ⟨.ok, requestCode r, s.livePayload p r⟩, live := none } := by
  cases p with
  | A =>
    rw [State.port_renderLive_of_ne (by decide), State.port_renderLive_of_ne (by decide),
      State.port_renderLive_of_live h]
  | B =>
    rw [State.port_renderLive_of_ne (by decide),
      State.port_renderLive_of_live (r := r) (by rwa [State.port_renderLive_of_ne (by decide)]),
      State.port_renderLive_of_ne (by decide), State.livePayload_renderLive]
  | C =>
    rw [State.port_renderLive_of_live (r := r)
        (by rwa [State.port_renderLive_of_ne (by decide), State.port_renderLive_of_ne (by decide)]),
      State.port_renderLive_of_ne (by decide), State.port_renderLive_of_ne (by decide), State.livePayload_renderLive,
      State.livePayload_renderLive]

/-- The close forms a port's copy from the state that it leaves (R161; log 7). -/
theorem State.port_settleBlockEnd {p : PortId} {r : Request} {s : State} (h : (s.port p).live = some r) :
    s.settleBlockEnd.port p =
      { s.port p with
        response := some ⟨.ok, requestCode r, s.settleBlockEnd.livePayload p r⟩, live := none } := by
  have hfixed (u : State) (hport : u.port p = s.port p) :
      let t : State := { ((u.renderLive .A).renderLive .B).renderLive .C with blockEndOpen := false }
      t.port p = { s.port p with response := some ⟨.ok, requestCode r, t.livePayload p r⟩, live := none } := by
    intro t
    have hpayload : t.livePayload p r = u.livePayload p r := by
      have hrendered := State.livePayload_congr p r (((u.renderLive .A).renderLive .B).renderLive .C)
        (((u.renderLive .A).renderLive .B).renderLive .C) false
      exact hrendered.trans (by simp)
    have htport : t.port p = (((u.renderLive .A).renderLive .B).renderLive .C).port p := by cases p <;> rfl
    rw [hpayload, htport, State.port_renderAll (hport ▸ h), hport]
  unfold State.settleBlockEnd
  dsimp only
  split
  · exact hfixed _ (by cases p <;> rfl)
  · exact hfixed _ rfl

/-! ### Bytes (R164) -/

theorem wireRamp_eq (x : Ramp) : wireRamp x = rampBytes x := by simp [wireRamp, rampBytes]

/-- A list's contributions, three bytes each. -/
theorem wireList_eq (list : List Contribution) : wireList list = list.flatMap contributionBytes := by
  simp only [wireList, wire_one, wire_two]
  rfl

/-- Mute group states as a sum of powers of two, and bit by bit from the last. -/
theorem sum_groups (groups : List Bool) (c : Nat) :
    (groups.mapIdx fun g on => if on then c * 2 ^ g else 0).sum =
      c * groups.foldr (fun on n => (if on then 1 else 0) + 2 * n) 0 := by
  induction groups generalizing c with
  | nil => rfl
  | cons on groups ih =>
    have htail : (fun g (on : Bool) => if on then c * 2 ^ (g + 1) else 0) =
        fun g (on : Bool) => if on then 2 * c * 2 ^ g else 0 := by
      funext g on
      rw [pow_succ']
      ring_nf
    rw [List.mapIdx_cons, List.sum_cons, htail, ih, List.foldr_cons]
    cases on <;> simp <;> ring

theorem wireGroups_eq (groups : List Bool) : wireGroups groups = [groupByte groups] := by
  have h := sum_groups groups 1
  simp only [Nat.one_mul] at h
  rw [wireGroups, wire_one, groupByte, h]

theorem wireTransport_eq (x : Transport) : wireTransport x = [transportByte x] := by cases x <;> rfl

theorem wireSlotState_eq (x : SlotState) : wireSlotState x = [x.byte] := by cases x <;> rfl

theorem wirePort_eq (x : PortId) : wirePort x = [portByte x] := by cases x <;> rfl

theorem wireMode_eq (x : CueMode) : wireMode x = [modeByte x] := by cases x <;> rfl

theorem wireAction_eq (x : CueAction) : wireAction x = ((actionKind x).byte, actionArgs x) := by
  cases x <;> simp [wireAction, actionKind, actionArgs, CueKind.byte, pushArgs, presenceByte]

theorem Link.statusBytes_eq (x : Link) :
    x.statusBytes = [x.state.byte] ++ wire 1 x.run ++ [x.seq] ++ wire 1 x.tracks ++ wireTransport x.transport ++
      [x.health.byte] ++ [x.pull.byte] ++ wire 1 x.fill ++ wireSigned 4 x.measuredOffset ++ wireSigned 4 x.taken ++
      wireBool x.measured ++ wireBool (x.departing.isSome || x.fadeIn) := by
  simp [Link.statusBytes, wireTransport_eq, wireSigned_four, Link.fading]

theorem Overlay.bytes_eq (e : Overlay) :
    e.bytes = wirePort e.owner ++ wire 2 e.programme ++ wire 2 e.master ++ e.slotTargets.flatMap (wire 2) ++
      wireGroups e.groups := by
  simp only [Overlay.bytes, wirePort_eq, wireGroups_eq, wire_two, funext wire_two]

theorem Bus.statusBytes_eq (b : Bus) :
    b.statusBytes = wire 2 b.trim ++ wire 2 b.distance ++ wireRamp b.mute ++ wire 2 b.computed ++ wire 2 b.applied ++
      wireBool b.limit := by
  simp only [Bus.statusBytes, wireRamp_eq, wire_two, wireBool_eq]

theorem Cue.bytes_eq (c : Cue) :
    c.bytes = wire 1 c.id ++ wire 1 ((if c.reel.isSome = true then 1 else 0) + (if c.frame.isSome = true then 2 else 0) +
        (if c.offset.isSome = true then 4 else 0)) ++
      wire 1 (c.reel.getD 0) ++ wire 2 (c.frame.getD 0) ++ wire 2 (c.offset.getD 0) ++ wireMode c.mode ++
      [(wireAction c.action).1] ++ (wireAction c.action).2 ++
      List.replicate (6 - (wireAction c.action).2.length) 0 ++ wireBool c.matched ++ wire 2 c.fires := by
  simp [Cue.bytes, wireMode_eq, wireAction_eq, actionBytes, enablesByte]

/-- The 16 buses of a group, one by one. -/
theorem busGroup_eq {s : State} (h : s.buses.length = 64) {g : Nat} (hg : g ≤ 3) :
    s.busGroup g = (List.range 16).map fun i => s.buses.getD (16 * g + i) Bus.reset := by
  unfold State.busGroup
  refine List.ext_getElem (by simp; omega) fun i hi _ => ?_
  have hi : i < 16 := by simp at hi; omega
  simp [List.getD_eq_getElem?_getD, show 16 * g + i < s.buses.length by omega]

theorem State.section1_eq (s : State) :
    s.section1 = [s.sel.cur.byte] ++ wireLink s.opening ++ wireLink (outgoingOf s.sel.cur) ++ wire 1 (stepOf s.sel.cur) ++
      wireLink (some s.sel.primary) ++ wireBool s.sel.autoRevert ++ wireBool s.sel.manualHold ++ [s.sel.align.byte] ++
      wire 2 s.sel.revert ++ wire 1 (s.scene.countState .free) ++ wire 1 (s.scene.countState .active) ++
      wire 1 (s.scene.countState .releasing) ++ wire 2 s.scene.free ++
      (s.scene.roomSlots.flatMap fun x => wireSlotState (if x.active = true then .active else .free)) ++
      wire 1 s.linkA.queue.length ++ wire 1 s.linkB.queue.length := by
  simp only [State.section1, Selector.statusBytes, wireLink_eq, wire_one, wire_two, wireBool_eq, wireSlotState_eq,
    State.opening, progByte, ← List.map_eq_flatMap, RoomSlot.state, List.append_assoc,
    List.cons_append, List.nil_append]

theorem State.section7_eq (s : State) :
    s.section7 = wireSigned 1 s.airTemp ++ (s.members.flatMap fun m => wire 8 m.toNat) ++ [s.ref.state.byte] ++
      wireBool s.store.valid ++ wireBool s.store.writing.isSome ++ [s.store.result.byte] ++ [s.startup.byte] := by
  simp [State.section7, wireSigned_one, wire_eight]

/-- A show position in its bytes. -/
theorem ShowPos.bytes_eq (p : ShowPos) : p.bytes = wire 1 p.reel ++ wire 2 (p.lin / 2000) ++ wire 2 (p.lin % 2000) := by
  simp only [ShowPos.bytes, wire_one, wire_two, Config.perPicture]

/-- The show position and transport of GET_POSITION: those of a frame index with its stamp, or zeros with HOLD. -/
def shownBytes : Option (FrameIndex × Stamp) → List Byte
  | none => (⟨0, 0⟩ : ShowPos).bytes ++ wireTransport .hold
  | some (i, σ) => (σ.readerPos i).bytes ++ wireTransport σ.transport

theorem State.positionPayload_eq (s : State) :
    s.positionPayload = wireBool s.cueing.start.isSome ++ shownBytes s.startStamp ++ posBytes s.cueing.hwm ++
      wire 4 s.blockCount.toNat ++ [s.sel.cur.byte] ++ wireLink s.opening ++ wire 1 s.cueing.cues.length := by
  unfold State.positionPayload
  rcases s.startStamp with _ | ⟨i, σ⟩ <;> simp [shownBytes, wireTransport_eq, wire_four]

/-- A read that is taken is answered with a copy that follows the block end. -/
theorem completes_answeredLive {c : Instr} {p : PortId} {r : Request} {code : Byte} {payload : List Byte} {s : State}
    (hexec : exec c s = .next (s.present p r))
    (htaken : s.present p r = (s.answer p code .ok payload).setLive p r) :
    Completes c s fun t => t = s.withPortsOf t ∧ OnlyPort p
      { s.port p with waiting := none, due := false, response := some ⟨.ok, code, payload⟩, live := some r } s t :=
  ⟨_, hexec.trans (congrArg _ htaken), State.answeredLive ..⟩

/-- Settles O49: each read is taken with a copy that the close forms anew (`State.port_settleBlockEnd`), and each payload is
the model's, field by field. -/
theorem readsAnswered : Obligations.ReadsAnswered := by
  unfold Obligations.ReadsAnswered
  refine ⟨fun p s => ⟨?status, ?loading, ?position, ?slot, ?cues⟩, ?close, fun s => ?bytes⟩
  case status =>
    intro sect hsect ht
    exact completes_answeredLive rfl ((State.present_takable ht).trans (if_neg (by omega)))
  case loading =>
    intro sect hsect ht
    exact completes_answeredLive rfl ((State.present_takableLoading ht).trans (if_neg (by omega)))
  case position =>
    intro ht
    exact completes_answeredLive rfl (State.present_takable ht)
  case slot =>
    intro kind slot hprogramme hroom ht
    have hok : slotNumberOk kind slot = true := by
      cases kind with
      | programme => exact decide_eq_true (hprogramme rfl)
      | room => exact decide_eq_true (hroom rfl)
    exact completes_answeredLive rfl ((State.present_takable ht).trans (if_pos hok))
  case cues =>
    intro rank hrank ht
    exact completes_answeredLive rfl ((State.present_takable ht).trans (if_neg (by omega)))
  case close =>
    intro p r s hopen hdue hlive
    have hleft := State.port_settleBlockEnd hlive
    rw [State.closeBlockEnd_of_not_due hopen hdue]
    cases r with
    | getStatus sect => exact hleft
    | getPosition => exact hleft
    | getSlot kind slot => exact hleft
    | cueList rank => exact hleft
    | _ => trivial
  case bytes =>
    refine ⟨?section0, ?selector, ?section2, ?sections3to6, ?section7, ?programmeSlot, ?roomSlot, ?cueBytes⟩
    case section0 =>
      intro linkBytes
      have hlink (x : Link) : linkBytes x = x.statusBytes := by
        rw [Link.statusBytes_eq]
        simp only [linkBytes]
        congr
        · cases x.state <;> rfl
        · cases x.health <;> rfl
        · cases x.pull <;> rfl
      rw [hlink, hlink, hlink]
      rfl
    case selector =>
      intro stateByte programme outgoing stepNumber count
      have hstate : stateByte = [s.sel.cur.byte] := by simp only [stateByte]; cases s.sel.cur <;> rfl
      have hprogramme : programme = s.opening := by
        simp only [programme, State.opening]; cases s.sel.cur <;> rfl
      have houtgoing : outgoing = outgoingOf s.sel.cur := by simp only [outgoing]; cases s.sel.cur <;> rfl
      have hstep : stepNumber = stepOf s.sel.cur := by simp only [stepNumber]; cases s.sel.cur <;> rfl
      have hcount (st : SlotState) : count st = s.scene.countState st := by
        simp [count, Scene.countState, List.countP_eq_length_filter]
      rw [hstate, hprogramme, houtgoing, hstep, hcount, hcount, hcount]
      refine ⟨s.section1_eq.trans ?_, s.positionPayload_eq.trans ?_⟩
      · congr
        cases s.sel.align <;> rfl
      · congr
        · unfold State.startStamp
          rcases s.cueing.start with _ | ⟨x, i⟩
          · simp [shownBytes, ShowPos.bytes_eq]
          · simp only [Link.stampOf]
            generalize List.find? _ (s.link (progLink x)).stamps = found
            rcases found with _ | σ
            · simp [shownBytes, ShowPos.bytes_eq]
            · simp only [Option.map_some, shownBytes, Stamp.readerPos, ShowPos.bytes_eq]
              cases σ.transport <;> rfl
        · rcases s.cueing.hwm with _ | h
          · simp [posBytes, ShowPos.bytes_eq, boolByte]
          · simp [posBytes, ShowPos.bytes_eq]
    case section2 =>
      rw [← List.flatMap_congr fun e _ => Overlay.bytes_eq e]
      simp [State.statusPayload, State.section2, wireRamp_eq, wireGroups_eq, State.slotTargets, State.depthByte,
        byteOf, List.flatMap_map]
    case sections3to6 =>
      intro g hg hbuses
      have hgroup : s.statusPayload (3 + g) = (s.busGroup g).flatMap Bus.statusBytes := by
        interval_cases g <;> rfl
      rw [hgroup, busGroup_eq hbuses hg, List.flatMap_map]
      exact List.flatMap_congr fun i _ => Bus.statusBytes_eq _
    case section7 =>
      refine s.section7_eq.trans ?_
      congr
      · cases s.ref.state <;> rfl
      · cases s.store.result <;> rfl
      · cases s.startup <;> rfl
    case programmeSlot =>
      intro slot
      simp [wireSlotState_eq, wireRamp_eq, wireList_eq, State.slotPayload, Scene.slot, listBytes]
    case roomSlot =>
      intro slot
      simp [wireSlotState_eq, wireRamp_eq, wireList_eq, State.slotPayload, Scene.roomSlot, listBytes, RoomSlot.state]
    case cueBytes =>
      intro p rank
      dsimp only
      rw [wire_one]
      exact congrArg (byteOf (s.cuesOf p).length :: ·) (List.flatMap_congr fun c _ => Cue.bytes_eq c)

end Sys2Proof.Machine
end

section
/-! SUPPORT. The fade arithmetic of the interpolator (R49): O14. -/

namespace Sys2Proof.Machine

/-! ### Fade weights (R49) -/

/-- Full level. -/
@[simp] theorem fadeBy_full (x : Int) : fadeBy 32 x = x := by
  unfold fadeBy
  omega

/-- Silence. -/
@[simp] theorem fadeBy_silence (x : Int) : fadeBy 0 x = 0 := by
  simp [fadeBy]

/-- The rounding keeps the order of the products. -/
theorem fadeBy_le_fadeBy {v w : Nat} {x y : Int} (h : x * v ≤ y * w) : fadeBy v x ≤ fadeBy w y :=
  Int.ediv_le_ediv (by decide) (Int.add_le_add_right h 16)

theorem fadeBy_mono_weight {v w : Nat} {x : Int} (hx : 0 ≤ x) (h : v ≤ w) : fadeBy v x ≤ fadeBy w x :=
  fadeBy_le_fadeBy (Int.mul_le_mul_of_nonneg_left (Int.ofNat_le.mpr h) hx)

theorem fadeBy_anti_weight {v w : Nat} {x : Int} (hx : x ≤ 0) (h : v ≤ w) : fadeBy w x ≤ fadeBy v x :=
  fadeBy_le_fadeBy (Int.mul_le_mul_of_nonpos_left hx (Int.ofNat_le.mpr h))

/-- Settles O14: the faded value is monotone in the weight for a value of at least 0 and antitone for one of at most 0,
so a weight in 0..32 leaves it between silence and full level. -/
theorem fadeArithmetic : Obligations.FadeArithmetic := by
  unfold Obligations.FadeArithmetic
  refine ⟨fun _ _ => rfl, fadeBy_full, fadeBy_silence, fun w x hw => ⟨fun hx => ?nonneg, fun hx => ?nonpos⟩⟩
  case nonneg => exact ⟨by simpa using fadeBy_mono_weight hx w.zero_le, by simpa using fadeBy_mono_weight hx hw⟩
  case nonpos => exact ⟨by simpa using fadeBy_anti_weight hx hw, by simpa using fadeBy_anti_weight hx w.zero_le⟩

end Sys2Proof.Machine
end

section
/-! SUPPORT. The selector's requests (section 4.6): a move of the programme, its LOCATE and its answer; O35, O36 and O37. -/

namespace Sys2Proof.Machine

/-! ### Answers to a taken request -/

/-- A request answered after a change that leaves the ports alone. -/
theorem completes_answered {c : Instr} {p : PortId} {r : Request} {code : Byte} {status : Status} {s s' : State}
    (hexec : exec c s = .next (s.present p r)) (ht : Takable p r s)
    (htake : takeRequest p r s = s'.answer p code status []) (hports : ∀ q, s'.port q = s.port q) :
    Completes c s fun t => t = s'.withPortsOf t ∧ Answered p status code [] s t := by
  refine ⟨s'.answer p code status [], by rw [hexec, State.present_takable ht, htake], by cases p <;> rfl, ?_, ?_⟩
  · rw [State.port_answer, if_pos rfl, hports p]
    rfl
  · intro q hq
    rw [State.port_answer, if_neg hq, hports q]

@[simp] theorem State.port_onSel (s : State) (f : Selector → Selector) (q : PortId) :
    (s.onSel f).port q = s.port q := by cases q <;> rfl

@[simp] theorem asProg_progLink (x : ProgLink) : asProg (progLink x) = some x := by cases x <;> rfl

/-! ### Moving the programme (R58, R62, R65) -/

/-- The programme goes to link `x`: the selector and the show position block change over, the link's queue is pruned and
PROGRAMME is raised at all ports. Entries and reversals are such moves (`State.enterCrossfade_some`,
`State.enterCrossfade_none`, `State.reverse_eq`). -/
def State.moveProgramme (sel : Selector) (cueing : Show) (x : ProgLink) (s : State) : State :=
  (({ s with sel := sel, cueing := cueing } : State).prune x).notifyAll .programme

theorem State.enterCrossfade_some (out inc : ProgLink) (s : State) :
    s.enterCrossfade (some out) inc =
      s.moveProgramme { s.sel with cur := .crossfade (some out) inc 1, setHere := true, revert := 0 } s.cueing inc := rfl

theorem State.reverse_eq (away back : ProgLink) (k : Nat) (s : State) :
    s.reverse away back k =
      s.moveProgramme { s.sel with cur := if k = 0 then .on back else .crossfade (some away) back k, setHere := true }
        s.cueing back := rfl

@[simp] theorem Link.readPos_prune (x : Link) : x.prune.readPos = x.readPos := by
  unfold Link.prune
  split <;> simp_all

@[simp] theorem Link.fresh_prune (x : Link) : x.prune.fresh = x.fresh := by
  unfold Link.prune
  split <;> rfl

@[simp] theorem Link.stamps_prune (x : Link) : x.prune.stamps = x.stamps := by
  unfold Link.prune
  split <;> rfl

theorem State.prune_eq_onLink (x : ProgLink) (s : State) :
    s.prune x = s.onLink (progLink x) fun y => if s.closing = some x then y else y.prune := by
  unfold State.prune
  split
  · cases x <;> rfl
  · rfl

theorem Link.prune_unread {x : Link} (h : x.readPos = none) : x.prune = x := by
  simp only [Link.prune, h]

theorem Link.prune_read {x : Link} {p : ReadPos} (h : x.readPos = some p) :
    x.prune =
      { x with queue := x.queue.filter fun r => decide (2147483648 ≤ (p.index - r.tag).toNat) } := by
  simp only [Link.prune, h, atOrBelow, ← decide_not, Nat.not_lt]

section
variable {sel : Selector} {cueing : Show} {x : ProgLink} {s : State}

theorem State.port_moveProgramme (q : PortId) :
    (s.moveProgramme sel cueing x).port q = (s.port q).raise .programme := by
  rw [State.moveProgramme, State.port_notifyAll, State.prune_eq_onLink, State.port_onLink]
  cases q <;> rfl

theorem State.link_moveProgramme (l : LinkId) :
    (s.moveProgramme sel cueing x).link l =
      if l = progLink x then if programmeOf sel.inForce = some x then s.link l else (s.link l).prune else s.link l := by
  rw [State.moveProgramme, State.link_notifyAll, State.prune_eq_onLink, State.link_onLink]
  cases l <;> rfl

theorem State.moveProgramme_frame :
    s.moveProgramme sel cueing x =
      { (s.withPortsOf (s.moveProgramme sel cueing x)).withLinksOf (s.moveProgramme sel cueing x) with
        sel := sel, cueing := cueing } := by
  rw [State.moveProgramme, State.prune_eq_onLink]
  cases x <;> rfl

theorem State.pruned_moveProgramme (hinForce : sel.inForce = s.sel.inForce) :
    Pruned x s (s.moveProgramme sel cueing x) := by
  unfold Pruned
  refine ⟨fun l hl => by rw [State.link_moveProgramme, if_neg hl], ?_⟩
  rw [State.link_moveProgramme, if_pos rfl, hinForce, ← State.closing]
  cases hp : (s.link (progLink x)).readPos with
  | none => simp only [Link.prune_unread hp]
  | some p => simp only [Link.prune_read hp, hp]

/-- A request that moves the programme and is answered. -/
theorem completes_moved {c : Instr} {p : PortId} {r : Request} {code : Byte}
    (hexec : exec c s = .next (s.present p r)) (ht : Takable p r s)
    (htake : takeRequest p r s = (s.moveProgramme sel cueing x).answer p code .ok [])
    (hinForce : sel.inForce = s.sel.inForce) :
    Completes c s fun t =>
      t = { (s.withPortsOf t).withLinksOf t with sel := sel, cueing := cueing } ∧ Pruned x s t ∧
        AnsweredRaising .programme p .ok code [] s t := by
  obtain ⟨hothers, hown⟩ := State.pruned_moveProgramme (cueing := cueing) hinForce
  refine ⟨_, by rw [hexec, State.present_takable ht, htake], ?_, ⟨?_, ?_⟩, ?_, ?_⟩
  · rw [State.moveProgramme_frame]
    cases p <;> rfl
  · simpa using hothers
  · simpa using hown
  · rw [State.port_answer, if_pos rfl, State.port_moveProgramme]
    rfl
  · intro q hq
    rw [State.port_answer, if_neg hq, State.port_moveProgramme]

end

/-! ### The LOCATE of an entry from NONE (R116) -/

/-- The show position block after a LOCATE that the selector hands on for link `x`. -/
def State.showLocated (x : ProgLink) (s : State) : Show :=
  if s.cueing.workDone = true then
    { s.cueing with
      cues := s.cueing.cues.map fun c => { c with matched := false }, hwm := s.readerAt x, locateHeld := false }
  else { s.cueing with locateHeld := true }

/-- The mark of a LOCATE is the show position of the opening programme's reader. -/
theorem State.openingStamp_readerPos {x : ProgLink} {s : State} (h : s.opening = some x) :
    (s.openingStamp.map fun (i, σ) => σ.readerPos i) = s.readerAt x := by
  simp only [State.openingStamp, h, State.readerAt, State.indexHere, Link.stampOf]
  rcases (s.link (progLink x)).readPos with _ | p
  · rfl
  · simp only [Option.map_some, Option.map_map]
    refine congrArg (Option.map · _) (funext fun σ => ?_)
    simp only [Function.comp, Stamp.readerPos]
    cases σ.transport <;> rfl

section
variable {sel : Selector} {cueing : Show} {x : ProgLink} {s : State}

@[simp] theorem State.readerAt_moveProgramme : (s.moveProgramme sel cueing x).readerAt x = s.readerAt x := by
  have hopen : (s.moveProgramme sel cueing x).blockEndOpen = s.blockEndOpen := by rw [State.moveProgramme_frame]; rfl
  by_cases hinForce : programmeOf sel.inForce = some x <;>
    simp [State.readerAt, State.link_moveProgramme, hinForce, hopen]

theorem State.onShow_moveProgramme (f : Show → Show) :
    (s.moveProgramme sel cueing x).onShow f = s.moveProgramme sel (f cueing) x := by
  rw [State.moveProgramme, State.moveProgramme, State.prune_eq_onLink, State.prune_eq_onLink]
  cases x <;> rfl

theorem State.locate_moveProgramme (hcur : programmeOf sel.cur = some x) :
    (s.moveProgramme sel s.cueing x).locate = s.moveProgramme sel (s.showLocated x) x := by
  have hshow : (s.moveProgramme sel s.cueing x).cueing = s.cueing := by rw [State.moveProgramme_frame]
  have hopening : (s.moveProgramme sel s.cueing x).opening = some x := by
    rw [State.moveProgramme_frame]
    exact hcur
  unfold State.locate State.showLocated
  rw [hshow]
  split
  · rw [State.applyLocate, State.openingStamp_readerPos hopening, State.readerAt_moveProgramme]
    exact State.onShow_moveProgramme _
  · exact State.onShow_moveProgramme _

end

theorem State.enterCrossfade_none (inc : ProgLink) (s : State) :
    s.enterCrossfade none inc =
      s.moveProgramme { s.sel with cur := .crossfade none inc 1, setHere := true, revert := 0 } (s.showLocated inc) inc :=
  State.locate_moveProgramme rfl

/-! ### HANDOVER (R66) -/

section
variable {p : PortId} {own : ProgLink} {s : State}

theorem takeHandover_idle (h : s.sel.cur = .idle) : takeHandover p s = s.answer p 0x28 .notActive [] := by
  simp [takeHandover, h]

theorem takeHandover_on {x : ProgLink} (hown : portProg p = some own) (h : s.sel.cur = .on x) :
    takeHandover p s =
      if own = x then
        if s.fit (otherProg x) = true ∧ s.sel.align = .aligned then
          (s.enterCrossfade (some x) (otherProg x)).answer p 0x28 .ok []
        else s.answer p 0x28 .notReady []
      else s.answer p 0x28 .notActive [] := by
  simp only [takeHandover, hown, h]

theorem takeHandover_crossfade {out : Option ProgLink} {inc : ProgLink} {k : Nat} (hown : portProg p = some own)
    (h : s.sel.cur = .crossfade out inc k) :
    takeHandover p s = s.answer p 0x28 (if own = inc then .notReady else .notActive) [] := by
  simp only [takeHandover, hown, h]
  split <;> rfl

end

/-! ### FORCE_PROGRAMME (R67) -/

/-- Manual hold set and the revert counter at 0, as FORCE_PROGRAMME does before it moves the programme. -/
def State.holdManual (s : State) : State := s.onSel fun v => { v with manualHold := true, revert := 0 }

theorem takeForceProgramme_fit {x : ProgLink} {s : State} (p : PortId) (h : s.fit x = true) :
    takeForceProgramme p (progLink x) s = (s.holdManual.force x).answer p 0x29 .ok [] := by
  simp [takeForceProgramme, h, State.holdManual]

theorem takeForceProgramme_unfit {x : ProgLink} {s : State} (p : PortId) (h : ¬ s.fit x = true) :
    takeForceProgramme p (progLink x) s = s.answer p 0x29 .notReady [] := by
  simp [takeForceProgramme, h]

/-- FORCE_PROGRAMME's move of the programme. -/
def State.forceMove (cur : SelState) (cueing : Show) (x : ProgLink) (s : State) : State :=
  s.moveProgramme { s.sel with cur := cur, setHere := true, manualHold := true, revert := 0 } cueing x

theorem State.showLocated_holdManual (x : ProgLink) (s : State) : s.holdManual.showLocated x = s.showLocated x := by
  cases x <;> rfl

theorem State.holdManual_enterCrossfade_none (x : ProgLink) (s : State) :
    s.holdManual.enterCrossfade none x = s.forceMove (.crossfade none x 1) (s.showLocated x) x := by
  rw [State.enterCrossfade_none, State.showLocated_holdManual]
  rfl

theorem State.holdManual_reverse (away x : ProgLink) (k : Nat) (s : State) :
    s.holdManual.reverse away x k =
      s.forceMove (if k = 0 then .on x else .crossfade (some away) x k) s.cueing x :=
  State.reverse_eq away x k s.holdManual

theorem completes_force_stays {p : PortId} {x : ProgLink} {s : State} {cur : SelState}
    (ht : Takable p (.forceProgramme (progLink x)) s) (hfit : s.fit x = true) (hcur : s.sel.cur = cur)
    (h : s.holdManual.force x = s.holdManual) :
    Completes (.forceProgramme p (progLink x)) s fun t =>
      t = { s.withPortsOf t with sel := { s.sel with cur := cur, manualHold := true, revert := 0 } } ∧
        Answered p .ok 0x29 [] s t := by
  subst hcur
  exact completes_answered (s' := s.holdManual) rfl ht ((takeForceProgramme_fit p hfit).trans (by rw [h]))
    (State.port_onSel s _)

theorem completes_force_moves {p : PortId} {x : ProgLink} {s : State} {cur : SelState} {cueing : Show}
    (ht : Takable p (.forceProgramme (progLink x)) s) (hfit : s.fit x = true)
    (h : s.holdManual.force x = s.forceMove cur cueing x) :
    Completes (.forceProgramme p (progLink x)) s fun t =>
      t = { (s.withPortsOf t).withLinksOf t with
        sel := { s.sel with cur := cur, setHere := true, manualHold := true, revert := 0 }, cueing := cueing } ∧
      Pruned x s t ∧ AnsweredRaising .programme p .ok 0x29 [] s t :=
  completes_moved rfl ht ((takeForceProgramme_fit p hfit).trans (by rw [h, State.forceMove])) rfl

section
variable {x inc : ProgLink} {s : State}

/-- A crossfade that played its step is reversed as R65 says. -/
theorem State.forceReverse_played {k : Nat} (h : s.sel.setHere = false) :
    s.holdManual.forceReverse x inc k =
      s.forceMove (if 4 - k = 0 then .on x else .crossfade (some inc) x (4 - k)) s.cueing x := by
  rw [State.forceReverse, show s.holdManual.sel.setHere = false from h, if_neg Bool.false_ne_true,
    State.holdManual_reverse]

/-- A crossfade entered at this block end from the target at full weight is taken back. -/
theorem State.forceReverse_full {k : Nat} (h : s.sel.setHere = true) (hw : weightIn x s.sel.inForce = 4) :
    s.holdManual.forceReverse x inc k = s.forceMove (.on x) s.cueing x := by
  rw [State.forceReverse, show s.holdManual.sel.setHere = true from h, if_pos rfl]
  exact (if_pos hw).trans (State.holdManual_reverse ..)

/-- A crossfade set at this block end goes back to the target's weight in the ending block, and at least to 1 (log 12). -/
theorem State.forceReverse_partial {k : Nat} (h : s.sel.setHere = true) (hw : weightIn x s.sel.inForce ≠ 4) :
    s.holdManual.forceReverse x inc k =
      s.forceMove (.crossfade (some inc) x (max (weightIn x s.sel.inForce) 1)) s.cueing x := by
  rw [State.forceReverse, show s.holdManual.sel.setHere = true from h, if_pos rfl]
  refine (if_neg hw).trans ?_
  rw [State.holdManual_reverse]
  exact congrArg (State.forceMove · _ _ _) (if_neg (by omega))

theorem State.force_idle (h : s.sel.cur = .idle) :
    s.holdManual.force x = s.forceMove (.crossfade none x 1) (s.showLocated x) x := by
  rw [State.force, show s.holdManual.sel.cur = _ from h]
  exact State.holdManual_enterCrossfade_none x s

theorem State.force_on {y : ProgLink} (h : s.sel.cur = .on y) :
    s.holdManual.force x =
      if y = x then s.holdManual
      else if s.sel.align = .aligned then s.forceMove (.crossfade (some y) x 1) s.cueing x
      else s.forceMove (.crossfade none x 1) (s.showLocated x) x := by
  rw [State.force, show s.holdManual.sel.cur = _ from h, ← State.holdManual_enterCrossfade_none]
  rfl

theorem State.force_crossfade {out : Option ProgLink} {k : Nat} (h : s.sel.cur = .crossfade out inc k) :
    s.holdManual.force x =
      if inc = x then s.holdManual
      else if out = some x then s.holdManual.forceReverse x inc k
      else s.forceMove (.crossfade none x 1) (s.showLocated x) x := by
  rw [State.force, show s.holdManual.sel.cur = _ from h, ← State.holdManual_enterCrossfade_none]

end

/-! ### The obligations -/

/-- Settles O35: one case for each cell of the table of R66. -/
theorem handoverRuns : Obligations.HandoverRuns := by
  unfold Obligations.HandoverRuns
  intro p own s hown ht
  cases hcur : s.sel.cur with
  | idle => exact completes_answered rfl ht (takeHandover_idle hcur) fun _ => rfl
  | on x =>
    have htake := takeHandover_on hown hcur
    by_cases hx : own = x
    · by_cases hready : s.fit (otherProg x) = true ∧ s.sel.align = .aligned
      · simp only [if_pos hx, if_pos hready] at htake ⊢
        exact completes_moved rfl ht (htake.trans (by rw [State.enterCrossfade_some])) rfl
      · simp only [if_pos hx, if_neg hready] at htake ⊢
        exact completes_answered rfl ht htake fun _ => rfl
    · simp only [if_neg hx] at htake ⊢
      exact completes_answered rfl ht htake fun _ => rfl
  | crossfade out inc k => exact completes_answered rfl ht (takeHandover_crossfade hown hcur) fun _ => rfl

/-- Settles O36: for a fit target each cell of the table of R67 leaves the programme where it is or moves it to the target
with or without a LOCATE. -/
theorem forceProgrammeRuns : Obligations.ForceProgrammeRuns := by
  unfold Obligations.ForceProgrammeRuns
  intro p x s ht
  by_cases hfit : s.fit x = true
  case neg =>
    simp only [if_neg hfit]
    exact completes_answered rfl ht (takeForceProgramme_unfit p hfit) fun _ => rfl
  simp only [if_pos hfit]
  have hmoves {cur : SelState} {cueing : Show} := completes_force_moves (cur := cur) (cueing := cueing) ht hfit
  cases hcur : s.sel.cur with
  | idle => exact hmoves (State.force_idle hcur)
  | on y =>
    have hforce := State.force_on (x := x) hcur
    by_cases hy : y = x
    · simp only [if_pos hy] at hforce ⊢
      exact completes_force_stays ht hfit hcur hforce
    by_cases ha : s.sel.align = .aligned
    · simp only [if_neg hy, if_pos ha] at hforce ⊢
      exact hmoves hforce
    · simp only [if_neg hy, if_neg ha] at hforce ⊢
      exact hmoves hforce
  | crossfade out inc k =>
    have hforce := State.force_crossfade (x := x) hcur
    by_cases hinc : inc = x
    · simp only [if_pos hinc] at hforce ⊢
      exact completes_force_stays ht hfit hcur hforce
    by_cases hout : out = some x
    · simp only [if_neg hinc, if_pos hout] at hforce ⊢
      cases hhere : s.sel.setHere with
      | false => exact hmoves (hforce.trans (State.forceReverse_played hhere))
      | true =>
        by_cases hw : weightIn x s.sel.inForce = 4
        · simp only [if_pos hw]
          exact hmoves (hforce.trans (State.forceReverse_full hhere hw))
        · simp only [if_neg hw]
          exact hmoves (hforce.trans (State.forceReverse_partial hhere hw))
    · simp only [if_neg hinc, if_neg hout] at hforce ⊢
      exact hmoves hforce

/-- Settles O37: both are an answer after one change of the selector. -/
theorem primaryAndRevertSet : Obligations.PrimaryAndRevertSet := by
  unfold Obligations.PrimaryAndRevertSet
  refine ⟨fun p x s ht => ?primary, fun p on s ht => ?revert⟩
  case primary =>
    exact completes_answered (s' := s.onSel fun v => { v with primary := x, revert := 0 }) rfl ht
      (by simp [takeRequest, takeSetPrimary]) (State.port_onSel s _)
  case revert =>
    exact completes_answered (s' := s.onSel fun v => { v with autoRevert := on, manualHold := false }) rfl ht rfl
      (State.port_onSel s _)

end Sys2Proof.Machine
end

section
/-! SUPPORT. The room state (chapter 8): what a push and a pop make of it, and the requests and cue actions that change it:
O40, O41 and O42. -/

namespace Sys2Proof.Machine

/-! ### Answers -/

@[simp] theorem State.port_onRoom (s : State) (f : Room → Room) (q : PortId) : (s.onRoom f).port q = s.port q := by
  cases q <;> rfl

@[simp] theorem State.port_onScene (s : State) (f : Scene → Scene) (q : PortId) : (s.onScene f).port q = s.port q := by
  cases q <;> rfl

/-- An answer changes its port alone. -/
theorem State.answer_frame (s : State) (p : PortId) (code : Byte) (status : Status) (payload : List Byte) :
    s.answer p code status payload = s.withPortsOf (s.answer p code status payload) := by cases p <;> rfl

theorem State.port_answer_eq_answered (s : State) (p q : PortId) (code : Byte) (status : Status) (payload : List Byte) :
    (s.answer p code status payload).port q =
      if q = p then (s.port p).answered status code payload else s.port q := by
  rw [State.port_answer]
  split <;> simp_all [Port.answered]

/-- A taken request completes with the state that taking it leaves. -/
theorem completes_taken {c : Instr} {p : PortId} {r : Request} {s t : State} {P : State → Prop}
    (hexec : exec c s = .next (s.present p r)) (ht : Takable p r s) (htake : takeRequest p r s = t) (hP : P t) :
    Completes c s P :=
  ⟨t, by rw [hexec, State.present_takable ht, htake], hP⟩

/-- An answer with a payload after a change that leaves the ports alone. -/
theorem State.answered_of_ports {s s' : State} (p : PortId) (code : Byte) (status : Status) (payload : List Byte)
    (hports : ∀ q, s'.port q = s.port q) :
    Answered p status code payload s (s'.answer p code status payload) := by
  refine ⟨?own, fun q hq => ?other⟩
  case own => rw [State.port_answer_eq_answered, if_pos rfl, hports]
  case other => rw [State.port_answer_eq_answered, if_neg hq, hports]

/-! ### Checks on the requests (R129, R130, R152) -/

theorem checkRequest_pass {p : PortId} {r : Request} (hright : holdsRight p r = true) (hargs : argsOk r = true) :
    checkRequest p r = .pass r := (if_pos hright).trans (if_pos hargs)

theorem readOnOff_eq (b : Byte) : readOnOff b = if b.toNat ≤ 1 then some (decide (b.toNat = 1)) else none := by
  unfold readOnOff
  split
  case h_1 h => simp [h]
  case h_2 h => simp [h]
  case h_3 h0 h1 => exact (if_neg fun h => (Nat.le_one_iff_eq_zero_or_eq_one.mp h).elim h0 h1).symm

theorem checkRequest_muteGroup (group : Nat) (on : Bool) :
    checkRequest .C (.muteGroup group on) =
      if group ≤ 3 then .pass (.muteGroup group on) else .fail .badArgument 0x32 := by
  have hright : holdsRight .C (.muteGroup group on) = true := rfl
  by_cases hgroup : group ≤ 3
  · rw [if_pos hgroup]
    exact checkRequest_pass hright (decide_eq_true hgroup)
  · rw [if_neg hgroup]
    exact (if_pos hright).trans (if_neg fun h => hgroup (of_decide_eq_true h))

/-- A frame with two payload bytes and the right check byte passes the first check. -/
theorem readFrame_two {code a b check : Byte} (h : check = code ^^^ 0x02 ^^^ a ^^^ b) :
    readFrame [0xA5, code, 0x02, a, b, check] = .ok code [a, b] := by
  subst h
  simp [readFrame, xorBytes]

theorem checkFrame_muteGroup {group state check : Byte} (h : check = 0x32 ^^^ 0x02 ^^^ group ^^^ state) :
    checkFrame .C [0xA5, 0x32, 0x02, group, state, check] =
      if group.toNat ≤ 3 ∧ state.toNat ≤ 1 then .pass (.muteGroup group.toNat (state.toNat = 1))
      else .fail .badArgument 0x32 := by
  have hright : codeRights 0x32 = some .room := rfl
  have hread : readRequest 0x32 [group, state] = (readOnOff state).map (.muteGroup group.toNat) := rfl
  have hclass : classAllows .C .room = true := rfl
  by_cases hon : state.toNat ≤ 1
  · simp only [checkFrame, readFrame_two h, hright, hread, readOnOff_eq, if_pos hon, Option.map_some,
      checkRequest_muteGroup, and_iff_left hon]
  · simp only [checkFrame, readFrame_two h, hright, hread, readOnOff_eq, if_neg hon, Option.map_none, if_pos hclass,
      if_neg (not_and_of_not_right _ hon)]

/-- Settles O40: each change is one of the level's ramp or of the group alone, and each check is read off the bytes. -/
theorem roomStateSet : Obligations.RoomStateSet := by
  unfold Obligations.RoomStateSet
  refine ⟨⟨fun p level ramp s ht => ?programme, fun p level ramp s ht => ?master⟩, fun p group on s hgroup ht => ?mute,
    fun level ramp hlevel hramp => ?accepted, fun _ _ _ _ => rfl, checkRequest_muteGroup,
    fun _ _ _ => checkFrame_muteGroup, fun _ _ _ _ => rfl⟩
  case programme =>
    exact completes_answered (s' := s.changeProgramme level ramp) rfl ht rfl (State.port_onRoom s _)
  case master =>
    exact completes_answered (s' := s.changeMaster level ramp) rfl ht rfl (State.port_onRoom s _)
  case mute =>
    exact completes_answered (s' := s.setGroup group on) rfl ht (if_neg (by omega)) (State.port_onRoom s _)
  case accepted =>
    have hargs : (decide (level ≤ 65535) && decide (ramp ≤ 255)) = true := by simp [hlevel, hramp]
    exact ⟨checkRequest_pass rfl hargs, checkRequest_pass rfl hargs⟩

/-! ### Pushes and pops (R131 to R134) -/

/-- A ramp changed to a level that may be present (R132). -/
def Ramp.changePresent (level : Option Nat) (ramp : Nat) (x : Ramp) : Ramp :=
  match level with
  | none => x
  | some v => x.change (clampLevel v) ramp

/-- The state once a push has saved the present targets and changed the levels that are present (R131, R132). -/
def State.pushed (owner : PortId) (programme master : Option Nat) (ramp : Nat) (s : State) : State :=
  s.onRoom fun r =>
    { r with
      programme := r.programme.changePresent programme ramp, master := r.master.changePresent master ramp
      stack := r.stack ++ [s.overlayFor owner] }

theorem State.push_eq (owner : PortId) (programme master : Option Nat) (ramp : Nat) (s : State) :
    s.push owner programme master ramp =
      if 8 ≤ s.room.stack.length then none else some (s.pushed owner programme master ramp) := by
  cases programme <;> cases master <;> rfl

theorem State.depth_pushed (owner : PortId) (programme master : Option Nat) (ramp : Nat) (s : State) :
    (s.pushed owner programme master ramp).room.stack.length = s.room.stack.length + 1 := List.length_append

section
variable {p : PortId} {ramp : Nat} {e : Overlay} {s : State}

theorem mayPop_iff {owner : PortId} : mayPop p owner = true ↔ p = owner ∨ p = .C := by
  simp [mayPop]

/-- The state once the top entry is off the stack and its targets are restored (R133). -/
def State.popped (e : Overlay) (ramp : Nat) (s : State) : State :=
  (s.onRoom fun r => { r with stack := r.stack.dropLast }).restore e ramp

theorem State.pop_empty (h : s.room.stack.getLast? = none) : s.pop p ramp = (.empty, s) := by
  simp only [State.pop, h]

theorem State.pop_refused (h : s.room.stack.getLast? = some e) (hp : ¬ (p = e.owner ∨ p = .C)) :
    s.pop p ramp = (.notOwner, s) := by
  simp only [State.pop, h]
  exact if_neg fun hmay => hp (mayPop_iff.mp hmay)

theorem State.pop_allowed (h : s.room.stack.getLast? = some e) (hp : p = e.owner ∨ p = .C) :
    s.pop p ramp =
      (.ok, if p = e.owner then s.popped e ramp else (s.popped e ramp).notify e.owner .overlayTaken) := by
  simp only [State.pop, h]
  exact if_pos (mayPop_iff.mpr hp)

@[simp] theorem State.port_popped (q : PortId) : (s.popped e ramp).port q = s.port q := by
  simp [State.popped, State.restore]

theorem takeRoomPop_ok {t : State} (h : s.pop p ramp = (.ok, t)) :
    takeRoomPop p ramp s = t.answer p 0x19 .ok [t.depthByte] := by
  simp only [takeRoomPop, h]

theorem takeRoomPop_refused {status : Status} {t : State} (h : s.pop p ramp = (status, t)) (hstatus : status ≠ .ok) :
    takeRoomPop p ramp s = t.answer p 0x19 status [] := by
  simp only [takeRoomPop, h]

/-- A pop that a port may make: by the owner it only restores; by port C it also raises OVERLAY_TAKEN at the owner. -/
theorem completes_roomPop (ht : Takable p (.roomPop ramp) s) (h : s.room.stack.getLast? = some e)
    (hp : p = e.owner ∨ p = .C) :
    Completes (.roomPop p ramp) s fun t =>
      t = (s.popped e ramp).withPortsOf t ∧ ∀ q, t.port q =
        if q = p then (s.port p).answered .ok 0x19 [BitVec.ofNat 8 s.room.stack.dropLast.length]
        else if q = e.owner then (s.port q).raise .overlayTaken else s.port q := by
  have hpop := State.pop_allowed (ramp := ramp) h hp
  by_cases hown : p = e.owner
  · rw [if_pos hown] at hpop
    refine completes_taken rfl ht (takeRoomPop_ok hpop) ⟨State.answer_frame .., fun q => ?_⟩
    rw [State.port_answer_eq_answered, State.port_popped, State.port_popped, ← hown]
    split
    · rfl
    · rfl
  · rw [if_neg hown] at hpop
    refine completes_taken rfl ht (takeRoomPop_ok hpop) ⟨?_, fun q => ?_⟩
    · rw [State.answer_frame]
      cases e.owner <;> rfl
    · rw [State.port_answer_eq_answered, State.port_notify, State.port_notify, State.port_popped, State.port_popped,
        if_neg hown, State.depthByte, State.room_notify]
      rfl

end

/-- Settles O41: a push is one change of the room (`State.push_eq`), followed by the answer. -/
theorem roomPushRuns : Obligations.RoomPushRuns := by
  unfold Obligations.RoomPushRuns
  intro p programme master ramp s ht
  have hpush := State.push_eq p programme master ramp s
  by_cases hdepth : s.room.stack.length < 8
  · rw [if_neg (Nat.not_le.mpr hdepth)] at hpush
    have htake : takeRequest p (.roomPush programme master ramp) s =
        (s.pushed p programme master ramp).answer p 0x18 .ok [BitVec.ofNat 8 (s.room.stack.length + 1)] := by
      simp only [takeRequest, takeRoomPush, hpush, State.depthByte, State.depth_pushed]
    simp only [if_pos hdepth]
    refine completes_taken rfl ht htake ⟨?frame, State.answered_of_ports p _ _ _ (State.port_onRoom s _)⟩
    case frame =>
      rw [State.answer_frame]
      cases programme <;> cases master <;> rfl
  · rw [if_pos (Nat.not_lt.mp hdepth)] at hpush
    simp only [if_neg hdepth]
    exact completes_answered (s' := s) rfl ht (by simp only [takeRequest, takeRoomPush, hpush]) fun _ => rfl

/-- Settles O42: the pop's three outcomes are `State.pop_empty`, `State.pop_refused` and `State.pop_allowed`. -/
theorem roomPopRuns : Obligations.RoomPopRuns := by
  unfold Obligations.RoomPopRuns
  intro p ramp s ht
  cases htop : s.room.stack.getLast? with
  | none =>
    exact completes_answered (s' := s) rfl ht (takeRoomPop_refused (State.pop_empty htop) (by decide)) fun _ => rfl
  | some e =>
    by_cases hp : p = e.owner ∨ p = .C
    · simp only [if_pos hp]
      exact completes_roomPop ht htop hp
    · simp only [if_neg hp]
      exact completes_answered (s' := s) rfl ht (takeRoomPop_refused (State.pop_refused htop hp) (by decide))
        fun _ => rfl

end Sys2Proof.Machine
end

section
/-! SUPPORT. The depth of the overlay stack across a step (R131 to R133): O6. Most operations leave the room state alone;
those that change it keep the stack, push one entry on fewer than 8, or take one off. -/

namespace Sys2Proof.Machine

/-! ### Laws that every step keeps -/

/-- A law is kept by every step when the taking of a command from the queue, the idle step and each command keep it. -/
theorem keptByEveryStep_of_completes {law : State → Prop}
    (hqueue : ∀ (s : State) (rest : List Instr), law s → law { s with pending := rest })
    (hidle : ∀ s : State, law s → law (s.passTicks 1))
    (hexec : ∀ (c : Instr) (s : State), law s → Completes c s law) : KeptByEveryStep law := by
  intro s t hs hstep
  unfold step at hstep
  split at hstep
  case h_1 =>
    injection hstep with hstep
    exact hstep ▸ hidle s hs
  case h_2 c rest _ =>
    obtain ⟨u, hu, hlaw⟩ := hexec c _ (hqueue s rest hs)
    rw [hu] at hstep
    injection hstep with hstep
    exact hstep ▸ hlaw

/-! ### What leaves the room state alone -/

@[simp] theorem State.room_onRoom (s : State) (f : Room → Room) : (s.onRoom f).room = f s.room := rfl

/-! #### Links (chapters 1 to 3) -/

theorem ActsOnLink.room {l : LinkId} {N : Notice → Prop} {s t : State} (h : ActsOnLink l N s t) : t.room = s.room := by
  rw [h.frame]
  rfl

@[simp] theorem State.room_setPhase (l : LinkId) (ph : Phase) (s : State) : (s.setPhase l ph).room = s.room :=
  State.room_onLink ..

@[simp] theorem State.room_setLinkState (l : LinkId) (st : LinkState) (s : State) :
    (s.setLinkState l st).room = s.room := (ActsOnLink.setLinkState (N := fun _ => True) st trivial).room

@[simp] theorem State.room_enterSearch (l : LinkId) (s : State) : (s.enterSearch l).room = s.room :=
  (ActsOnLink.enterSearch (N := fun _ => True) trivial).room

/-! #### The selector (chapter 4) -/

@[simp] theorem State.room_setSel (st : SelState) (s : State) : (s.setSel st).room = s.room := rfl

@[simp] theorem State.room_setAlign (a : AlignStatus) (s : State) : (s.setAlign a).room = s.room := rfl

@[simp] theorem State.room_setRevertCount (n : Nat) (s : State) : (s.setRevertCount n).room = s.room := rfl

@[simp] theorem State.room_prune (x : ProgLink) (s : State) : (s.prune x).room = s.room := by
  rw [State.prune_eq_onLink, State.room_onLink]

@[simp] theorem State.room_pruneStandby (x : ProgLink) (s : State) : (s.pruneStandby x).room = s.room := by
  simp [State.pruneStandby, apply_ite State.room]

@[simp] theorem State.room_moveProgramme (sel : Selector) (cueing : Show) (x : ProgLink) (s : State) :
    (s.moveProgramme sel cueing x).room = s.room := by
  rw [State.moveProgramme_frame]
  rfl

@[simp] theorem State.room_enterCrossfade (out : Option ProgLink) (inc : ProgLink) (s : State) :
    (s.enterCrossfade out inc).room = s.room := by
  cases out with
  | none => rw [State.enterCrossfade_none, State.room_moveProgramme]
  | some x => rw [State.enterCrossfade_some, State.room_moveProgramme]

@[simp] theorem State.room_reverse (away back : ProgLink) (k : Nat) (s : State) :
    (s.reverse away back k).room = s.room := by
  rw [State.reverse_eq, State.room_moveProgramme]

@[simp] theorem State.room_offer (y : ProgLink) (m : FrameIndex) (frac : Nat) (s : State) :
    (s.offer y m frac).room = s.room := by
  simp [State.offer, apply_ite State.room]

@[simp] theorem State.room_alignStandby (s : State) : s.alignStandby.room = s.room := by
  unfold State.alignStandby
  split
  · rfl
  · split
    · split
      · rfl
      · split
        · rfl
        · exact State.room_offer ..
    · rfl

@[simp] theorem State.room_crossfadeStep (s : State) : s.crossfadeStep.room = s.room := by
  unfold State.crossfadeStep
  split
  · simp [apply_ite State.room]
  · rfl

@[simp] theorem State.room_decideStep (s : State) : s.decideStep.room = s.room := by
  unfold State.decideStep
  split
  · simp [State.decideIdle, apply_ite State.room]
  · simp [State.decideOn, State.revertTest, apply_ite State.room]
  · rfl

@[simp] theorem State.room_evaluate (s : State) : s.evaluate.room = s.room := by simp [State.evaluate]

@[simp] theorem State.room_force (x : ProgLink) (s : State) : (s.force x).room = s.room := by
  unfold State.force
  split
  · simp
  · simp [apply_ite State.room]
  · simp [State.forceReverse, apply_ite State.room]

/-! #### The scene table (chapter 5) -/

@[simp] theorem State.room_applyRecord (x : ProgLink) (tracks : Nat) (s : State) (r : Tagged) :
    (s.applyRecord x tracks r).room = s.room := by
  unfold State.applyRecord
  split
  · rfl
  · simp

@[simp] theorem State.room_applyDue (x : ProgLink) (n : FrameIndex) (tracks : Nat) (s : State) :
    (s.applyDue x n tracks).room = s.room :=
  List.foldlRecOn (motive := fun t => t.room = s.room) _ _ (State.room_onLink ..)
    fun t ht r _ => (State.room_applyRecord x tracks t r).trans ht

@[simp] theorem State.room_sceneWork (due : Option (ProgLink × FrameIndex × Nat)) (s : State) :
    (s.sceneWork due).room = s.room := by
  unfold State.sceneWork
  dsimp only
  split
  · rfl
  · simp

/-! #### House samples (chapters 6 and 9) -/

@[simp] theorem State.room_runSample (s : State) : s.runSample.room = s.room := by
  simp [State.runSample, State.mixSample, State.scanMeters, State.zeroFrame, apply_ite State.room]

@[simp] theorem State.room_houseSample (s : State) : s.houseSample.room = s.room := by
  unfold State.houseSample
  split
  · split
    · rfl
    · rfl
    · rfl
    · simp
  · rfl

/-! #### The port engines (chapter 10) -/

@[simp] theorem State.room_accept (p : PortId) (code : Byte) (c : Checked) (s : State) :
    (s.accept p code c).room = s.room := by
  unfold State.accept State.settleRequest
  split
  · simp
  · split
    · simp
    · simp [apply_ite State.room]

@[simp] theorem State.room_requestSelection (p : PortId) (sent : List Byte) (s : State) :
    (s.requestSelection p sent).room = s.room := by
  unfold State.requestSelection
  split <;> simp

@[simp] theorem State.room_renderLive (q : PortId) (s : State) : (s.renderLive q).room = s.room := by
  rw [State.renderLive_frame]
  rfl

/-! #### The reference block (chapter 11) -/

@[simp] theorem State.room_sawEdge (seen : Bool) (s : State) : (s.sawEdge seen).room = s.room := rfl

@[simp] theorem State.room_moveRef (f : Reference → Reference) (s : State) : (s.moveRef f).room = s.room := by
  unfold State.moveRef
  dsimp only
  split
  · rfl
  · rw [State.room_notifyAll]

/-! ### The overlay stack in the operations on the room state (chapter 8) -/

theorem State.stack_popped (e : Overlay) (ramp : Nat) (s : State) :
    (s.popped e ramp).room.stack = s.room.stack.dropLast := rfl

theorem State.stack_pop {p : PortId} {ramp : Nat} {status : Status} {s t : State} (h : s.pop p ramp = (status, t)) :
    t.room.stack = s.room.stack ∨ t.room.stack = s.room.stack.dropLast := by
  cases htop : s.room.stack.getLast? with
  | none =>
    cases (State.pop_empty htop).symm.trans h
    exact .inl rfl
  | some e =>
    by_cases hp : p = e.owner ∨ p = .C
    · cases (State.pop_allowed htop hp).symm.trans h
      exact .inr (by simp [apply_ite State.room, State.stack_popped])
    · cases (State.pop_refused htop hp).symm.trans h
      exact .inl rfl

namespace OverlayLaw

variable {s t : State}

theorem of_stack (h : OverlayLaw s) (hstack : t.room.stack = s.room.stack) : OverlayLaw t := by
  rwa [OverlayLaw, hstack]

theorem of_room (h : OverlayLaw s) (hroom : t.room = s.room) : OverlayLaw t := h.of_stack (by rw [hroom])

/-- A stack that may be pushed on holds fewer than 8 entries (R132). -/
theorem of_push {p : PortId} {programme master : Option Nat} {ramp : Nat}
    (h : s.push p programme master ramp = some t) : OverlayLaw t := by
  rw [State.push_eq] at h
  split at h
  · cases h
  · cases h
    rw [OverlayLaw, State.depth_pushed]
    omega

theorem of_pop {p : PortId} {ramp : Nat} {status : Status} (h : OverlayLaw s) (hpop : s.pop p ramp = (status, t)) :
    OverlayLaw t := by
  rcases State.stack_pop hpop with hstack | hstack
  · exact h.of_stack hstack
  · rw [OverlayLaw, hstack, List.length_dropLast]
    exact (Nat.sub_le _ 1).trans h

theorem answer (h : OverlayLaw s) (p : PortId) (code : Byte) (status : Status) (payload : List Byte) :
    OverlayLaw (s.answer p code status payload) := h.of_room (State.room_answer ..)

theorem toReset (kind : ResetKind) (s : State) : OverlayLaw (s.toReset kind) := Nat.zero_le 8

/-! ### Requests taken -/

theorem takeRoomPush (h : OverlayLaw s) (p : PortId) (programme master : Option Nat) (ramp : Nat) :
    OverlayLaw (takeRoomPush p programme master ramp s) := by
  unfold Machine.takeRoomPush
  split
  · exact h.answer ..
  · exact (of_push ‹_›).answer ..

theorem takeRoomPop (h : OverlayLaw s) (p : PortId) (ramp : Nat) : OverlayLaw (takeRoomPop p ramp s) := by
  unfold Machine.takeRoomPop
  split
  · exact (h.of_pop ‹_›).answer ..
  · exact (h.of_pop ‹_›).answer ..

end OverlayLaw

/-- The requests that neither push nor pop nor restart the part. -/
def Request.leavesStack : Request → Bool
  | .roomPush _ _ _ => false
  | .roomPop _ => false
  | .restart => false
  | _ => true

/-- Each such request is an answer after a change that leaves the room alone, or changes a level or a group of it. -/
theorem State.stack_takeRequest (p : PortId) {r : Request} (s : State) (hr : Request.leavesStack r = true) :
    (takeRequest p r s).room.stack = s.room.stack := by
  cases r with
  | roomPush _ _ _ => cases hr
  | roomPop _ => cases hr
  | restart => cases hr
  | getStatus _ | getCounters _ | getMeters _ | getPosition | getSlot _ _ | getNotices | getResetCause =>
    simp [takeRequest, takeGetStatus, takeGetCounters, takeGetMeters, takeGetPosition, takeGetSlot, takeGetNotices,
      takeGetResetCause, State.setLive, apply_ite State.room]
  | setNoticeMask _ | setNoticeEnable _ | clearCounters | storeSettings | ackResetCause =>
    simp [takeRequest, takeSetNoticeMask, takeSetNoticeEnable, takeClearCounters, takeStoreSettings,
      takeAckResetCause, apply_ite State.room]
  | cueAdd _ | cueCancel _ | cueList _ | cueLog =>
    simp [takeRequest, takeCueAdd, takeCueCancel, takeCueList, takeCueLog, State.setLive, apply_ite State.room]
  | linkRestart _ | linkDisable _ | linkEnable _ =>
    simp [takeRequest, takeLinkRestart, takeLinkDisable, takeLinkEnable, apply_ite State.room]
  | handover =>
    simp only [takeRequest, takeHandover]
    split <;> simp [apply_ite State.room]
  | forceProgramme _ | setPrimary _ =>
    simp only [takeRequest, takeForceProgramme, takeSetPrimary]
    split <;> simp [apply_ite State.room]
  | setRevert _ => simp [takeRequest, takeSetRevert]
  | setProgrammeLevel _ _ | setMasterLevel _ _ | muteGroup _ _ =>
    simp [takeRequest, takeSetProgrammeLevel, takeSetMasterLevel, takeMuteGroup, State.changeProgramme,
      State.changeMaster, State.setGroup, apply_ite State.room, apply_ite Room.stack]
  | roomSlotSet _ _ _ _ _ | roomSlotGain _ _ _ | roomSlotClear _ =>
    simp [takeRequest, takeRoomSlotSet, takeRoomSlotGain, takeRoomSlotClear, apply_ite State.room]
  | setBusTrim _ _ | setBusDistance _ _ | setAirTemp _ | setMuteGroup _ _ =>
    simp [takeRequest, takeSetBusTrim, takeSetBusDistance, takeSetAirTemp, takeSetMuteGroup, apply_ite State.room]

theorem OverlayLaw.takeRequest {s : State} (h : OverlayLaw s) (p : PortId) (r : Request) :
    OverlayLaw (takeRequest p r s) := by
  cases hr : Request.leavesStack r with
  | true => exact h.of_stack (State.stack_takeRequest p s hr)
  | false =>
    cases r with
    | roomPush programme master ramp => exact h.takeRoomPush p programme master ramp
    | roomPop ramp => exact h.takeRoomPop p ramp
    | restart => exact OverlayLaw.toReset .command s
    | _ => cases hr

namespace OverlayLaw

variable {s t : State}

theorem present (h : OverlayLaw s) (p : PortId) (r : Request) : OverlayLaw (s.present p r) := by
  have haccept : OverlayLaw (s.accept p (requestCode r) (checkRequest p r)) := h.of_room (State.room_accept ..)
  unfold State.present State.acceptAndTake
  split
  · exact h
  · split
    · exact h.takeRequest p r
    · dsimp only
      split
      · exact haccept.takeRequest p r
      · exact haccept

/-! ### Cues (chapter 7) -/

theorem cueAction (h : OverlayLaw s) (p : PortId) (a : CueAction) : OverlayLaw (s.cueAction p a).1 := by
  cases a with
  | programmeLevel level ramp => exact h.of_stack rfl
  | muteGroup group on => exact h.of_stack rfl
  | notify => exact h
  | roomPush programme master ramp =>
    simp only [State.cueAction]
    split
    · exact of_push ‹_›
    · exact h
  | roomPop ramp =>
    simp only [State.cueAction]
    split
    · exact h.of_pop ‹_›
    · exact h.of_pop ‹_›

theorem fire (h : OverlayLaw s) (c : Cue) : OverlayLaw (s.fire c) := by
  unfold State.fire
  dsimp only
  split
  · exact (h.cueAction c.port c.action).of_room (by simp)
  · exact (h.cueAction c.port c.action).of_room (by simp)

theorem evaluateCues (pos : ShowPos) (n : Nat) (cues : List Cue) (h : OverlayLaw s) :
    OverlayLaw (evaluateCues pos n cues s).2 := by
  induction cues generalizing s with
  | nil => exact h
  | cons c rest ih =>
    unfold Machine.evaluateCues
    split
    · exact ih h
    · split
      · dsimp only
        split
        · exact ih (h.fire c)
        · exact ih (h.fire c)
      · exact ih h

theorem closeSegment (h : OverlayLaw s) (g : Segment) : OverlayLaw (s.closeSegment g) := by
  unfold State.closeSegment
  split
  · exact h
  · dsimp only
    split
    · exact (evaluateCues _ _ _ (h.of_room (State.room_onShow ..))).of_room (State.room_onShow ..)
    · exact h.of_room (State.room_onShow ..)

theorem passStamp {g : Segment} (h : OverlayLaw s) (l : LinkId) (start : FrameIndex) (n : Nat) (σ : Stamp) :
    OverlayLaw (passStamp l start n (s, g) σ).1 := by
  unfold Machine.passStamp
  dsimp only
  split
  · exact (h.closeSegment g).of_room (State.room_onLink ..)
  · exact h

theorem passFrames (h : OverlayLaw s) (l : LinkId) (start : FrameIndex) (n : Nat) :
    OverlayLaw (s.passFrames l start n) := by
  have hpassed : OverlayLaw ((s.link l).stamps.foldl (Machine.passStamp l start n) (s, none)).1 :=
    List.foldlRecOn (motive := fun acc : State × Segment => OverlayLaw acc.1) _ _ h
      fun _ hacc σ _ => passStamp hacc l start n σ
  exact hpassed.closeSegment _

theorem showWork (h : OverlayLaw s) (endAt : Option (ProgLink × FrameIndex)) : OverlayLaw (s.showWork endAt) := by
  have hend {u : State} (hu : OverlayLaw u) :
      OverlayLaw (let v := u.onShow fun w => { w with workDone := true }
        if v.cueing.locateHeld then v.applyLocate else v) :=
    hu.of_room (by simp [State.applyLocate, apply_ite State.room])
  unfold State.showWork
  apply hend
  split
  · dsimp only
    split
    · exact h.passFrames ..
    · exact h
  · exact h

/-! ### Block ends -/

theorem sweep (h : OverlayLaw s) (p : PortId) : OverlayLaw (s.sweep p) := by
  unfold State.sweep
  split
  · exact h
  · split
    · exact h.takeRequest ..
    · exact h

theorem settleBlockEnd (h : OverlayLaw s) : OverlayLaw s.settleBlockEnd := by
  unfold State.settleBlockEnd
  dsimp only
  split
  · exact h.of_stack (by simp [State.dropMarks])
  · exact h.of_room (by simp)

theorem closeBlockEnd (h : OverlayLaw s) : OverlayLaw s.closeBlockEnd := by
  have hswept := ((h.sweep .A).sweep .B).sweep .C
  unfold State.closeBlockEnd
  split
  · dsimp only
    split
    · exact hswept.settleBlockEnd
    · exact hswept
  · exact h

theorem passTicks (h : OverlayLaw s) (n : Nat) : OverlayLaw (s.passTicks n) := by
  unfold State.passTicks
  split
  · exact h
  · exact h.closeBlockEnd.of_room (State.room_runOn ..)

theorem closeBefore (h : OverlayLaw s) (d : Option Tick) : OverlayLaw (s.closeBefore d) := by
  unfold State.closeBefore
  split
  · exact h
  · split
    · exact h.closeBlockEnd
    · exact h

theorem doWork (h : OverlayLaw s) (e : Ending) (w : Work) : OverlayLaw (s.doWork e w) := by
  unfold State.doWork
  split
  · match w with
    | .evaluation => exact h.of_room (State.room_evaluate s)
    | .muteSteps => exact h.of_room (State.room_stepMutes s)
    | .scene => exact h.of_room (State.room_sceneWork e.due s)
    | .levels => exact h.of_stack rfl
    | .show => exact h.showWork e.stop
    | .links => exact h.of_room rfl
  · exact h

theorem runEvents (e : Ending) (order : List BlockEvent) (left : List Work) (h : OverlayLaw s) :
    OverlayLaw (State.runEvents e order left s) := by
  induction order generalizing left s with
  | nil => exact List.foldlRecOn (motive := OverlayLaw) _ _ h fun _ hu w _ => hu.doWork e w
  | cons b rest ih =>
    cases b with
    | work w =>
      unfold State.runEvents
      split
      · exact ih _ (h.doWork e w)
      · exact ih _ h
    | take p => exact ih _ (h.sweep p)

theorem beginBlockEnd (h : OverlayLaw s) (order : List BlockEvent) : OverlayLaw (s.beginBlockEnd order) := by
  have hcounted : OverlayLaw s.countBlock.markDue := h.of_room (by simp)
  have hworked : OverlayLaw (if s.countBlock.markDue.startup = .run then s.countBlock.markDue.blockWork order
      else s.countBlock.markDue) := by
    split
    · exact runEvents _ _ _ (hcounted.of_room rfl)
    · exact hcounted
  exact hworked.of_room (by simp [State.beginBlockEnd, apply_ite State.room])

/-! ### The load (R173) -/

theorem runToLoadEnd (h : OverlayLaw s) : OverlayLaw s.runToLoadEnd := by
  have hfirst : OverlayLaw { s.closeBlockEnd.markDue with blockEndOpen := true } := h.closeBlockEnd.of_room rfl
  have hclosed : OverlayLaw (if s.blockCount.toNat < 2 then { s.closeBlockEnd.markDue with blockEndOpen := true }
      else s).closeBlockEnd := by
    split
    · exact hfirst.closeBlockEnd
    · exact h.closeBlockEnd
  exact hclosed.of_room (by simp [State.runToLoadEnd, apply_ite State.room])

theorem load (h : OverlayLaw s) : OverlayLaw s.load := by
  unfold State.load
  split
  · exact h.of_stack rfl
  · exact h.of_stack rfl

/-! ### Read selections -/

theorem readSelection (h : OverlayLaw s) (p : PortId) (n : Nat) : OverlayLaw (s.readSelection p n) := by
  unfold State.readSelection
  dsimp only
  split
  · exact h.closeBlockEnd
  all_goals exact h.closeBlockEnd.of_room (State.room_onPort ..)

/-! ### Commands -/

/-- Every command completes and keeps the law. -/
theorem completes (h : OverlayLaw s) (c : Instr) : Completes c s OverlayLaw := by
  cases c with
  | startSymbol l ticks =>
    have hpassed := h.passTicks ticks
    by_cases hrun : (s.passTicks ticks).startup = .run
    · exact ⟨_, execStartSymbol_run hrun,
        hpassed.of_room (ActsOnLink.start (N := fun _ => True) (l := l) trivial).room⟩
    · exact ⟨_, execStartSymbol_before_run hrun, hpassed⟩
  | feedBlock l symbols =>
    exact ⟨_, rfl, h.of_room (exec_feedBlock_acts rfl).room⟩
  | gapTimerExpiry l =>
    exact ⟨_, rfl, (h.closeBefore _).of_room (ActsOnLink.gapExpiry (N := fun _ => True) (l := l) trivial).room⟩
  | holdoverTimerExpiry l =>
    exact ⟨_, rfl, (h.closeBefore _).of_room (ActsOnLink.holdExpiry (N := fun _ => True) (l := l) trivial).room⟩
  | houseSample => exact ⟨_, rfl, h.closeBlockEnd.of_room (State.room_houseSample _)⟩
  | blockEnd order =>
    refine ⟨_, rfl, ?_⟩
    split
    · exact h.closeBlockEnd.beginBlockEnd order
    · exact h.closeBlockEnd
  | requestSelection p sent =>
    refine ⟨_, rfl, ?_⟩
    split
    · exact h
    · split
      · exact h.readSelection ..
      · exact h.of_room (State.room_requestSelection ..)
  | readSelection p n => exact ⟨_, rfl, h.readSelection p n⟩
  | storeWriteEnd readBack =>
    refine ⟨_, rfl, ?_⟩
    split
    · exact h
    · exact h.of_room (State.room_notify ..)
  | powerOn => exact ⟨_, rfl, (toReset .powerOn s).of_room rfl⟩
  | resetPin =>
    refine ⟨_, rfl, ?_⟩
    split
    · exact toReset .pin s
    · exact h
  | resetEnd => exact ⟨_, rfl, h.of_room (by simp [apply_ite State.room])⟩
  | loadEnd =>
    refine ⟨_, rfl, ?_⟩
    split
    · exact h.runToLoadEnd.load
    · exact h
  | refEdge period =>
    exact ⟨_, rfl, h.of_room (by simp [apply_ite State.room])⟩
  | refMissingPeriod =>
    exact ⟨_, rfl, h.of_room (by simp [apply_ite State.room])⟩
  | pullInEnd => exact ⟨_, rfl, h.of_room rfl⟩
  | powerLoss => exact ⟨_, rfl, (toReset .powerOn s).of_room rfl⟩
  | _ => exact ⟨_, rfl, h.present _ _⟩

end OverlayLaw

/-- Settles O6: the law is kept by every command (`OverlayLaw.completes`), of which only a push adds an entry
(`OverlayLaw.of_push`). -/
theorem overlayLawKept : Obligations.OverlayLawKept :=
  keptByEveryStep_of_completes (fun _ _ h => h.of_room rfl) (fun _ h => h.passTicks 1) fun c _ h => h.completes c

end Sys2Proof.Machine
end

section
/-! SUPPORT. The output commands as they are taken (R142, R143, R146): O48. -/

namespace Sys2Proof.Machine

/-! ### The set that SET_MUTE_GROUP names (R143) -/

theorem getLsbD_foldl_busSet (list : List Nat) (set : BitVec 64) {b : Nat} (hb : b < 64) :
    (list.foldl (fun set b => set ||| (1#64 <<< b)) set).getLsbD b = (set.getLsbD b || decide (b ∈ list)) := by
  induction list generalizing set with
  | nil => simp
  | cons a rest ih =>
    have hbit : (1#64 <<< a).getLsbD b = decide (b = a) := by
      simp only [BitVec.getLsbD_shiftLeft, BitVec.getLsbD_one, hb]
      grind
    rw [List.foldl_cons, ih, BitVec.getLsbD_or, hbit, Bool.or_assoc]
    simp

/-- The set holds exactly the buses of the list (R143). -/
theorem getLsbD_busSet (list : List Nat) {b : Nat} (hb : b < 64) : (busSet list).getLsbD b = decide (b ∈ list) :=
  (getLsbD_foldl_busSet list 0 hb).trans (by simp)

@[simp] theorem State.port_onBus (s : State) (i : Nat) (f : Bus → Bus) (q : PortId) :
    (s.onBus i f).port q = s.port q := by cases q <;> rfl

/-! ### The commands taken (R142, R143, R146) -/

theorem takeSetBusTrim_ok (p : PortId) {bus trim : Nat} (s : State) (hbus : bus ≤ 63) (htrim : trim ≤ 65535) :
    takeSetBusTrim p bus trim s = (s.onBus bus fun b => { b with trim := trim }).answer p 0x38 .ok [] :=
  if_neg (by omega)

theorem takeSetBusDistance_ok (p : PortId) {bus : Nat} (distance : Nat) (s : State) (hbus : bus ≤ 63) :
    takeSetBusDistance p bus distance s =
      ({ s.onBus bus fun b => { b with distance := min distance 60000 } with delayDirty := true } : State).answer p 0x39
        .ok [] :=
  if_neg (by omega)

theorem takeSetMuteGroup_ok (p : PortId) {group : Nat} {list : List Nat} (s : State) (hgroup : group ≤ 3)
    (hlength : list.length ≤ 64) (hlist : ∀ b ∈ list, b ≤ 63) :
    takeSetMuteGroup p group list s =
      ({ s with members := s.members.set group (busSet list) } : State).answer p 0x3B .ok [] := by
  refine if_neg ?_
  rintro (hover | hover | hover)
  · omega
  · omega
  · obtain ⟨b, hb, hover⟩ := List.any_eq_true.mp hover
    exact Nat.not_lt.mpr (hlist b hb) (of_decide_eq_true hover)

/-- Settles O48: each command is one change of the output stage, followed by the answer. -/
theorem outputSettingsSet : Obligations.OutputSettingsSet := by
  unfold Obligations.OutputSettingsSet
  refine ⟨fun p bus trim s hbus htrim ht => ?trim, fun p bus distance s hbus ht => ?distance, fun p temp s ht => ?temp,
    fun p group list s hgroup hlength hlist ht => ?group⟩
  case trim =>
    exact completes_answered rfl ht (takeSetBusTrim_ok p s hbus htrim) (State.port_onBus s _ _)
  case distance =>
    exact completes_answered rfl ht (takeSetBusDistance_ok p distance s hbus) fun q => by cases q <;> rfl
  case temp =>
    exact completes_answered (s' := { s with airTemp := clampInt (-10) 45 temp, delayDirty := true }) rfl ht rfl
      fun q => by cases q <;> rfl
  case group =>
    obtain ⟨t, hexec, hframe, hanswered⟩ :=
      completes_answered (c := .setMuteGroup p group list) rfl ht (takeSetMuteGroup_ok p s hgroup hlength hlist)
        fun q => by cases q <;> rfl
    exact ⟨t, hexec, busSet list, fun b hb => getLsbD_busSet list hb, hframe, hanswered⟩

end Sys2Proof.Machine
end

section
/-! SUPPORT. The slew of an applied delay (R147), and what the close of a block end makes of a bus (R140, R144 to R147):
O17. -/

namespace Sys2Proof.Machine

/-! ### The slew (R147) -/

/-- A slew moves the applied delay only when no wait is left, by one sample towards the computed delay, and begins a
wait of 7 with the move. -/
theorem Bus.slew_cases (b : Bus) :
    (0 < b.wait ∧ b.slew.applied = b.applied ∧ b.slew.wait = b.wait - 1) ∨
    (b.wait = 0 ∧ b.applied < b.computed ∧ b.slew.applied = b.applied + 1 ∧ b.slew.wait = 7) ∨
    (b.wait = 0 ∧ b.computed < b.applied ∧ b.slew.applied = b.applied - 1 ∧ b.slew.wait = 7) ∨
    (b.wait = 0 ∧ b.computed = b.applied ∧ b.slew.applied = b.applied ∧ b.slew.wait = 0) := by
  unfold Bus.slew
  split
  · exact .inl ⟨‹_›, rfl, rfl⟩
  · have hwait : b.wait = 0 := by omega
    split
    · exact .inr (.inl ⟨hwait, ‹_›, rfl, rfl⟩)
    · split
      · exact .inr (.inr (.inl ⟨hwait, ‹_›, rfl, rfl⟩))
      · exact .inr (.inr (.inr ⟨hwait, by omega, rfl, hwait⟩))

/-- A slew changes the applied delay and the wait alone. -/
theorem Bus.slew_eq (b : Bus) : b.slew = { b with applied := b.slew.applied, wait := b.slew.wait } := by
  unfold Bus.slew
  split_ifs <;> rfl

/-- A slew does not look at the mute factor. -/
theorem Bus.slew_mute (b : Bus) (m : Ramp) : Bus.slew { b with mute := m } = { b.slew with mute := m } := by
  unfold Bus.slew
  split_ifs <;> rfl

@[simp] theorem Bus.computed_slew (b : Bus) : b.slew.computed = b.computed := by rw [Bus.slew_eq]

@[simp] theorem Bus.trim_slew (b : Bus) : b.slew.trim = b.trim := by rw [Bus.slew_eq]

/-- A slew leaves the applied delay within any bounds that hold it and the computed delay. -/
theorem Bus.applied_slew_between {b : Bus} {lo hi : Nat} (hlo : lo ≤ b.applied ∧ lo ≤ b.computed)
    (hhi : b.applied ≤ hi ∧ b.computed ≤ hi) : lo ≤ b.slew.applied ∧ b.slew.applied ≤ hi := by
  have hslew := b.slew_cases
  omega

theorem Bus.computed_iterate_slew (b : Bus) (n : Nat) : (Bus.slew^[n] b).computed = b.computed := by
  induction n with
  | zero => rfl
  | succ n ih => rw [Function.iterate_succ_apply', Bus.computed_slew, ih]

/-- With one computed delay, any number of slews moves the applied delay towards it and not past it. -/
theorem Bus.applied_iterate_slew_between (b : Bus) (n : Nat) :
    min b.applied b.computed ≤ (Bus.slew^[n] b).applied ∧ (Bus.slew^[n] b).applied ≤ max b.applied b.computed := by
  induction n with
  | zero => exact ⟨min_le_left .., le_max_left ..⟩
  | succ n ih =>
    have hcomputed := b.computed_iterate_slew n
    rw [Function.iterate_succ_apply']
    exact Bus.applied_slew_between ⟨ih.1, by omega⟩ ⟨ih.2, by omega⟩

/-! ### Eight slews (R147) -/

/-- `n` slews after `b`: the applied delay has not moved, or it has moved by one sample and the wait that began with the
move lasts at least to the eighth slew. -/
def MovedAtMostOnce (b : Bus) (n : Nat) (x : Bus) : Prop :=
  x.wait ≤ 7 ∧ x.applied ≤ 2047 ∧
    (x.applied = b.applied ∨ (x.applied = b.applied + 1 ∨ x.applied + 1 = b.applied) ∧ 8 ≤ x.wait + n)

namespace MovedAtMostOnce

variable {b x : Bus} {n : Nat}

theorem slew (h : MovedAtMostOnce b n x) (hn : n < 8) (hcomputed : x.computed ≤ 2047) :
    MovedAtMostOnce b (n + 1) x.slew := by
  have hslew := x.slew_cases
  unfold MovedAtMostOnce at h ⊢
  omega

theorem foldl_slew {ds : List Nat} (h : MovedAtMostOnce b n x) (hn : n + ds.length ≤ 8) (hds : ∀ d ∈ ds, d ≤ 2047) :
    MovedAtMostOnce b (n + ds.length) (ds.foldl (fun (b : Bus) d => Bus.slew { b with computed := d }) x) := by
  induction ds generalizing n x with
  | nil => exact h
  | cons d rest ih =>
    obtain ⟨hd, hrest⟩ := List.forall_mem_cons.mp hds
    rw [List.length_cons] at hn ⊢
    rw [Nat.add_comm rest.length, ← Nat.add_assoc]
    exact ih (slew (x := { x with computed := d }) h (by omega) hd) (by omega) hrest

end MovedAtMostOnce

/-! ### What the close makes of a bus (R140, R144) -/

/-- A bus is held exactly when a group that is on has it among its members (R144). -/
theorem isHeldBus_iff (groups : List Bool) (members : List (BitVec 64)) (i : Nat) :
    isHeldBus groups members i = true ↔
      ∃ g, groups.getD g false = true ∧ (members.getD g 0).getLsbD i = true := by
  induction groups generalizing members with
  | nil => simp [isHeldBus]
  | cons on rest ih =>
    cases members with
    | nil => simp [isHeldBus]
    | cons set members =>
      have hcons : isHeldBus (on :: rest) (set :: members) i = (on && set.getLsbD i || isHeldBus rest members i) := rfl
      rw [hcons, Bool.or_eq_true, Bool.and_eq_true, ih]
      constructor
      · rintro (h | ⟨g, h⟩)
        · exact ⟨0, h⟩
        · exact ⟨g + 1, h⟩
      · rintro ⟨_ | g, h⟩
        · exact .inl h
        · exact .inr ⟨g, h⟩

/-- The mute factor that a hold asks for (R144). -/
theorem Bus.retarget_eq (held : Bool) (b : Bus) :
    b.retarget held = { b with
      mute := if (if held then 0 else 32768) = b.mute.target then b.mute
        else ⟨b.mute.current, if held then 0 else 32768, 4, true⟩ } := by
  unfold Bus.retarget
  dsimp only [Config.unity]
  generalize (if held = true then 0 else 32768) = wanted
  split <;> rfl

/-- A bus as the close of a block end leaves it: its mute factor retargeted, its applied delay slewed, and the values of
the next block fixed (R140, R144, R147). -/
theorem Bus.settle_fixBlock (held : Bool) (master : Nat) (b : Bus) :
    let x := b.fixBlock held master
    { x with mute := x.mute.settle } =
      { b.slew with
        mute := if (if held then 0 else 32768) = b.mute.target then { b.mute with changed := false }
          else ⟨b.mute.current, if held then 0 else 32768, 4, false⟩,
        inTrim := b.trim, inMeff := (master * b.mute.current + 16384) / 32768, inDelay := b.slew.applied } := by
  simp only [Bus.fixBlock, Bus.retarget_eq, Bus.slew_mute, Bus.fix, Bus.trim_slew, gainProduct]
  generalize (if held = true then 0 else 32768) = wanted
  split <;> rfl

/-! ### The close (log 4) -/

@[simp] theorem State.buses_renderLive (q : PortId) (s : State) : (s.renderLive q).buses = s.buses := by
  rw [State.renderLive_frame]
  rfl

@[simp] theorem State.delayDirty_renderLive (q : PortId) (s : State) : (s.renderLive q).delayDirty = s.delayDirty := by
  rw [State.renderLive_frame]
  rfl

/-- The delays that the close slews towards: computed afresh when a distance or the temperature was taken (R146). -/
def State.busesToFix (s : State) : List Bus := if s.delayDirty then computeDelays s.airTemp s.buses else s.buses

theorem State.buses_settleBlockEnd {s : State} (h : s.startup = .run) :
    s.settleBlockEnd.buses =
      (s.busesToFix.mapIdx fun i b =>
        b.fixBlock (isHeldBus s.room.groups s.members i) s.room.master.current).map fun b =>
          { b with mute := b.mute.settle } := by
  simp [State.settleBlockEnd, h, State.dropMarks, State.fixBlock, State.fixOutput, State.captureStart,
    State.busesToFix]

theorem State.delayDirty_settleBlockEnd {s : State} (h : s.startup = .run) : s.settleBlockEnd.delayDirty = false := by
  simp [State.settleBlockEnd, h, State.dropMarks, State.fixBlock, State.fixOutput]

theorem State.length_busesToFix (s : State) : s.busesToFix.length = s.buses.length := by
  unfold State.busesToFix
  split
  · exact List.length_map _
  · rfl

theorem State.busesToFix_getD {s : State} {i : Nat} (hi : i < s.buses.length) :
    s.busesToFix.getD i Bus.reset =
      let b := s.buses.getD i Bus.reset
      if s.delayDirty = true then b.computeDelay (soundSpeed s.airTemp) (greatestFlight (soundSpeed s.airTemp) s.buses)
      else b := by
  unfold State.busesToFix
  split
  · simp [computeDelays, hi]
  · rfl

/-- Settles O17: the eight slews are `MovedAtMostOnce.foldl_slew`, and each bus of the close is read off
`State.buses_settleBlockEnd` and `Bus.settle_fixBlock`. -/
theorem slewMovesOnceInEight : Obligations.SlewMovesOnceInEight := by
  unfold Obligations.SlewMovesOnceInEight
  refine ⟨fun b => rfl, fun b ds hlength hwait happlied hds => ?eight,
    fun b _ _ _ n _ => b.applied_iterate_slew_between n, fun s hrun hopen hdue => ?close⟩
  case eight =>
    obtain ⟨hwait', happlied', hmoved⟩ :=
      MovedAtMostOnce.foldl_slew (b := b) (n := 0) ⟨hwait, happlied, .inl rfl⟩ (by omega) hds
    exact ⟨by omega, happlied', hwait'⟩
  case close =>
    intro t c flight far
    have ht : t = s.settleBlockEnd := State.closeBlockEnd_of_not_due hopen hdue
    have hbuses : t.buses = _ := ht ▸ State.buses_settleBlockEnd hrun
    refine ⟨ht ▸ State.delayDirty_settleBlockEnd hrun, ?_, fun i hi => ?_⟩
    · rw [hbuses, List.length_map, List.length_mapIdx, State.length_busesToFix]
    intro b d
    have hlength : i < s.busesToFix.length := by rwa [State.length_busesToFix]
    have hd : s.busesToFix[i] = d := by
      rw [← List.getD_eq_getElem _ Bus.reset, State.busesToFix_getD hi]
      rfl
    obtain ⟨htrim, hmute⟩ : d.trim = b.trim ∧ d.mute = b.mute := by
      simp only [d]
      split <;> exact ⟨rfl, rfl⟩
    refine ⟨isHeldBus s.room.groups s.members i, isHeldBus_iff .., ?_⟩
    rw [hbuses, List.getD_eq_getElem _ _ (by rwa [List.length_map, List.length_mapIdx]), List.getElem_map,
      List.getElem_mapIdx, hd, Bus.settle_fixBlock, htrim, hmute]

end Sys2Proof.Machine
end

section
/-! SUPPORT. What a step can make of a bus (chapter 9): what leaves the buses alone, for O12. -/

namespace Sys2Proof.Machine

/-! ### What leaves the buses alone -/

/-! #### Links (chapters 1 to 3) -/

theorem ActsOnLink.buses {l : LinkId} {N : Notice → Prop} {s t : State} (h : ActsOnLink l N s t) :
    t.buses = s.buses := by
  rw [h.frame]
  rfl

@[simp] theorem State.buses_setPhase (l : LinkId) (ph : Phase) (s : State) : (s.setPhase l ph).buses = s.buses :=
  State.buses_onLink ..

@[simp] theorem State.buses_setLinkState (l : LinkId) (st : LinkState) (s : State) :
    (s.setLinkState l st).buses = s.buses := (ActsOnLink.setLinkState (N := fun _ => True) st trivial).buses

@[simp] theorem State.buses_enterSearch (l : LinkId) (s : State) : (s.enterSearch l).buses = s.buses :=
  (ActsOnLink.enterSearch (N := fun _ => True) trivial).buses

/-! #### The selector (chapter 4) -/

@[simp] theorem State.buses_setSel (st : SelState) (s : State) : (s.setSel st).buses = s.buses := rfl

@[simp] theorem State.buses_setAlign (a : AlignStatus) (s : State) : (s.setAlign a).buses = s.buses := rfl

@[simp] theorem State.buses_setRevertCount (n : Nat) (s : State) : (s.setRevertCount n).buses = s.buses := rfl

@[simp] theorem State.buses_pruneStandby (x : ProgLink) (s : State) : (s.pruneStandby x).buses = s.buses := by
  simp [State.pruneStandby, State.prune_eq_onLink, apply_ite State.buses]

@[simp] theorem State.buses_moveProgramme (sel : Selector) (cueing : Show) (x : ProgLink) (s : State) :
    (s.moveProgramme sel cueing x).buses = s.buses := by
  rw [State.moveProgramme_frame]
  rfl

@[simp] theorem State.buses_enterCrossfade (out : Option ProgLink) (inc : ProgLink) (s : State) :
    (s.enterCrossfade out inc).buses = s.buses := by
  cases out with
  | none => rw [State.enterCrossfade_none, State.buses_moveProgramme]
  | some x => rw [State.enterCrossfade_some, State.buses_moveProgramme]

@[simp] theorem State.buses_reverse (away back : ProgLink) (k : Nat) (s : State) :
    (s.reverse away back k).buses = s.buses := by
  rw [State.reverse_eq, State.buses_moveProgramme]

@[simp] theorem State.buses_offer (y : ProgLink) (m : FrameIndex) (frac : Nat) (s : State) :
    (s.offer y m frac).buses = s.buses := by
  simp [State.offer, apply_ite State.buses]

@[simp] theorem State.buses_alignStandby (s : State) : s.alignStandby.buses = s.buses := by
  unfold State.alignStandby
  split
  · rfl
  · split
    · split
      · rfl
      · split
        · rfl
        · exact State.buses_offer ..
    · rfl

@[simp] theorem State.buses_crossfadeStep (s : State) : s.crossfadeStep.buses = s.buses := by
  unfold State.crossfadeStep
  split
  · simp [apply_ite State.buses]
  · rfl

@[simp] theorem State.buses_decideStep (s : State) : s.decideStep.buses = s.buses := by
  unfold State.decideStep
  split
  · simp [State.decideIdle, apply_ite State.buses]
  · simp [State.decideOn, State.revertTest, apply_ite State.buses]
  · rfl

@[simp] theorem State.buses_evaluate (s : State) : s.evaluate.buses = s.buses := by simp [State.evaluate]

@[simp] theorem State.buses_force (x : ProgLink) (s : State) : (s.force x).buses = s.buses := by
  unfold State.force
  split
  · simp
  · simp [apply_ite State.buses]
  · simp [State.forceReverse, apply_ite State.buses]

/-! #### The scene table (chapter 5) -/

@[simp] theorem State.buses_applyRecord (x : ProgLink) (tracks : Nat) (s : State) (r : Tagged) :
    (s.applyRecord x tracks r).buses = s.buses := by
  unfold State.applyRecord
  split
  · rfl
  · simp

@[simp] theorem State.buses_applyDue (x : ProgLink) (n : FrameIndex) (tracks : Nat) (s : State) :
    (s.applyDue x n tracks).buses = s.buses :=
  List.foldlRecOn (motive := fun t => t.buses = s.buses) _ _ (State.buses_onLink ..)
    fun t ht r _ => (State.buses_applyRecord x tracks t r).trans ht

@[simp] theorem State.buses_sceneWork (due : Option (ProgLink × FrameIndex × Nat)) (s : State) :
    (s.sceneWork due).buses = s.buses := by
  unfold State.sceneWork
  dsimp only
  split
  · rfl
  · simp

/-! #### Cues and the show position (chapter 7) -/

theorem State.buses_push {p : PortId} {programme master : Option Nat} {ramp : Nat} {s t : State}
    (h : s.push p programme master ramp = some t) : t.buses = s.buses := by
  rw [State.push_eq] at h
  split at h
  · cases h
  · cases h; rfl

theorem State.buses_pop {p : PortId} {ramp : Nat} {status : Status} {s t : State} (h : s.pop p ramp = (status, t)) :
    t.buses = s.buses := by
  cases htop : s.room.stack.getLast? with
  | none =>
    cases (State.pop_empty htop).symm.trans h
    rfl
  | some e =>
    by_cases hp : p = e.owner ∨ p = .C
    · cases (State.pop_allowed htop hp).symm.trans h
      simp [apply_ite State.buses, State.popped, State.restore]
    · cases (State.pop_refused htop hp).symm.trans h
      rfl

@[simp] theorem State.buses_cueAction (p : PortId) (a : CueAction) (s : State) :
    (s.cueAction p a).1.buses = s.buses := by
  cases a with
  | programmeLevel _ _ | muteGroup _ _ | notify => rfl
  | roomPush programme master ramp =>
    simp only [State.cueAction]
    split
    · exact State.buses_push ‹_›
    · rfl
  | roomPop ramp =>
    simp only [State.cueAction]
    split <;> exact State.buses_pop ‹_›

@[simp] theorem State.buses_fire (c : Cue) (s : State) : (s.fire c).buses = s.buses := by
  unfold State.fire
  dsimp only
  split <;> simp

@[simp] theorem buses_evaluateCues (pos : ShowPos) (n : Nat) (cues : List Cue) (s : State) :
    (evaluateCues pos n cues s).2.buses = s.buses := by
  induction cues generalizing s with
  | nil => rfl
  | cons c rest ih =>
    unfold evaluateCues
    split
    · exact ih s
    · split
      · dsimp only
        split <;> simp [ih]
      · exact ih s

@[simp] theorem State.buses_evaluateSegment (pos : ShowPos) (n : Nat) (s : State) :
    (s.evaluateSegment pos n).buses = s.buses := by
  simp [State.evaluateSegment]

@[simp] theorem State.buses_closeSegment (g : Segment) (s : State) : (s.closeSegment g).buses = s.buses := by
  unfold State.closeSegment
  split
  · rfl
  · simp [apply_ite State.buses]

@[simp] theorem State.buses_locateAt (l : LinkId) (σ : Stamp) (s : State) : (s.locateAt l σ).buses = s.buses :=
  State.buses_onLink ..

@[simp] theorem buses_passStamp (l : LinkId) (start : FrameIndex) (n : Nat) (acc : State × Segment) (σ : Stamp) :
    (passStamp l start n acc σ).1.buses = acc.1.buses := by
  unfold passStamp
  dsimp only
  split <;> simp

@[simp] theorem State.buses_passFrames (l : LinkId) (start : FrameIndex) (n : Nat) (s : State) :
    (s.passFrames l start n).buses = s.buses := by
  have hpassed : ((s.link l).stamps.foldl (passStamp l start n) (s, none)).1.buses = s.buses :=
    List.foldlRecOn (motive := fun acc : State × Segment => acc.1.buses = s.buses) _ _ rfl
      fun acc hacc σ _ => (buses_passStamp l start n acc σ).trans hacc
  exact (State.buses_closeSegment _ _).trans hpassed

@[simp] theorem State.buses_applyLocate (s : State) : s.applyLocate.buses = s.buses := State.buses_onShow ..

@[simp] theorem State.buses_showWork (stop : Option (ProgLink × FrameIndex)) (s : State) :
    (s.showWork stop).buses = s.buses := by
  unfold State.showWork
  dsimp only
  split <;> simp [apply_ite State.buses]

/-! #### The port engines and the reference block (chapters 10 and 11) -/

@[simp] theorem State.buses_accept (p : PortId) (code : Byte) (c : Checked) (s : State) :
    (s.accept p code c).buses = s.buses := by
  unfold State.accept State.settleRequest
  split
  · simp
  · split <;> simp [apply_ite State.buses]

@[simp] theorem State.buses_requestSelection (p : PortId) (sent : List Byte) (s : State) :
    (s.requestSelection p sent).buses = s.buses := by
  unfold State.requestSelection
  split <;> simp

@[simp] theorem State.buses_moveRef (f : Reference → Reference) (s : State) : (s.moveRef f).buses = s.buses := by
  unfold State.moveRef
  dsimp only
  split
  · rfl
  · rw [State.buses_notifyAll]

/-! #### Requests taken -/

/-- The requests that change no bus: all but those of trims, distances and counters, and the restart. -/
def Request.leavesBuses : Request → Bool
  | .setBusTrim _ _ => false
  | .setBusDistance _ _ => false
  | .clearCounters => false
  | .restart => false
  | _ => true

theorem State.buses_takeRequest (p : PortId) {r : Request} (s : State) (hr : Request.leavesBuses r = true) :
    (takeRequest p r s).buses = s.buses := by
  cases r with
  | setBusTrim _ _ => cases hr
  | setBusDistance _ _ => cases hr
  | clearCounters => cases hr
  | restart => cases hr
  | getStatus _ | getCounters _ | getMeters _ | getPosition | getSlot _ _ | getNotices | getResetCause =>
    simp [takeRequest, takeGetStatus, takeGetCounters, takeGetMeters, takeGetPosition, takeGetSlot, takeGetNotices,
      takeGetResetCause, State.setLive, apply_ite State.buses]
  | setNoticeMask _ | setNoticeEnable _ | storeSettings | ackResetCause =>
    simp [takeRequest, takeSetNoticeMask, takeSetNoticeEnable, takeStoreSettings, takeAckResetCause,
      apply_ite State.buses]
  | cueAdd _ | cueCancel _ | cueList _ | cueLog =>
    simp [takeRequest, takeCueAdd, takeCueCancel, takeCueList, takeCueLog, State.setLive, apply_ite State.buses]
  | linkRestart _ | linkDisable _ | linkEnable _ =>
    simp [takeRequest, takeLinkRestart, takeLinkDisable, takeLinkEnable, apply_ite State.buses]
  | handover =>
    simp only [takeRequest, takeHandover]
    split <;> simp [apply_ite State.buses]
  | forceProgramme _ | setPrimary _ =>
    simp only [takeRequest, takeForceProgramme, takeSetPrimary]
    split <;> simp [apply_ite State.buses]
  | setRevert _ => simp [takeRequest, takeSetRevert]
  | setProgrammeLevel _ _ | setMasterLevel _ _ | muteGroup _ _ =>
    simp [takeRequest, takeSetProgrammeLevel, takeSetMasterLevel, takeMuteGroup, State.changeProgramme,
      State.changeMaster, State.setGroup, apply_ite State.buses]
  | roomPush _ _ _ =>
    simp only [takeRequest, takeRoomPush]
    split
    · exact State.buses_answer ..
    · exact (State.buses_answer ..).trans (State.buses_push ‹_›)
  | roomPop _ =>
    simp only [takeRequest, takeRoomPop]
    split <;> exact (State.buses_answer ..).trans (State.buses_pop ‹_›)
  | roomSlotSet _ _ _ _ _ | roomSlotGain _ _ _ | roomSlotClear _ =>
    simp [takeRequest, takeRoomSlotSet, takeRoomSlotGain, takeRoomSlotClear, apply_ite State.buses]
  | setAirTemp _ | setMuteGroup _ _ =>
    simp [takeRequest, takeSetAirTemp, takeSetMuteGroup, apply_ite State.buses]

end Sys2Proof.Machine
end

section
/-! SUPPORT. Laws of a bus across a step: O12. A step changes a bus by the output stage's changes alone
(`BusChange`), or resets the part; so what these keep, every step keeps (`EveryBus.keptByEveryStep`). -/

namespace Sys2Proof.Machine

/-! ### The changes of one bus (chapter 9) -/

/-- One change that the output stage makes of a bus, outside a reset: what was taken for it (R142, R163, R170), its delay
(R145, R147), its mute factor (R77, R144), its values for a block (R140), and a house sample (R141, R148). -/
inductive BusChange (b : Bus) : Bus → Prop
  | setTrim (trim : Nat) : BusChange b { b with trim := trim }
  | setDistance (distance : Nat) : BusChange b { b with distance := distance }
  | clearCounters : BusChange b { b with overload := 0, clips := 0 }
  | computeDelay (c far : Nat) : BusChange b (b.computeDelay c far)
  | seatDelay : BusChange b b.seatDelay
  | slew : BusChange b b.slew
  | stepMute : BusChange b { b with mute := b.mute.step }
  | retarget (held : Bool) : BusChange b (b.retarget held)
  | settleMute : BusChange b { b with mute := b.mute.settle }
  | fix (master : Nat) : BusChange b (b.fix master)
  | sample (acc : Int) : BusChange b (b.sample acc).2.2.2

/-- What holds of a bus in reset and is kept by every change of a bus. -/
structure BusInvariant (P : Bus → Prop) : Prop where
  reset : P Bus.reset
  keeps : ∀ {b c : Bus}, BusChange b c → P b → P c

/-- A law of a bus holds of every bus. -/
def EveryBus (P : Bus → Prop) (s : State) : Prop := ∀ b ∈ s.buses, P b

namespace EveryBus

variable {P : Bus → Prop} {s t : State}

theorem of_buses (h : EveryBus P s) (hbuses : t.buses = s.buses) : EveryBus P t := by
  rwa [EveryBus, hbuses]

theorem toReset (hP : BusInvariant P) (kind : ResetKind) (s : State) : EveryBus P (s.toReset kind) := by
  intro b hb
  rw [List.eq_of_mem_replicate hb]
  exact hP.reset

/-- A change of every bus. -/
theorem of_map (hP : BusInvariant P) (h : EveryBus P s) {f : Bus → Bus} (hf : ∀ b, BusChange b (f b))
    (hbuses : t.buses = s.buses.map f) : EveryBus P t := by
  intro c hc
  rw [hbuses] at hc
  obtain ⟨b, hb, rfl⟩ := List.mem_map.mp hc
  exact hP.keeps (hf b) (h b hb)

/-- A change of one bus. -/
theorem onBus (hP : BusInvariant P) (h : EveryBus P s) (i : Nat) {f : Bus → Bus} (hf : ∀ b, BusChange b (f b)) :
    EveryBus P (s.onBus i f) := by
  intro c hc
  obtain ⟨j, hj, rfl⟩ := List.mem_iff_getElem.mp hc
  simp only [State.onBus, List.getElem_modify]
  split
  · exact hP.keeps (hf _) (h _ (List.getElem_mem _))
  · exact h _ (List.getElem_mem _)

/-! ### The changes of the output stage -/

theorem stepMutes (hP : BusInvariant P) (h : EveryBus P s) : EveryBus P s.stepMutes :=
  h.of_map hP (fun _ => .stepMute) rfl

theorem computeDelays (hP : BusInvariant P) {buses : List Bus} (h : ∀ b ∈ buses, P b) (temp : Int) :
    ∀ b ∈ computeDelays temp buses, P b := by
  intro c hc
  obtain ⟨b, hb, rfl⟩ := List.mem_map.mp hc
  exact hP.keeps (.computeDelay _ _) (h b hb)

theorem busesToFix (hP : BusInvariant P) (h : EveryBus P s) : ∀ b ∈ s.busesToFix, P b := by
  unfold State.busesToFix
  split
  · exact computeDelays hP h _
  · exact h

theorem settleBlockEnd (hP : BusInvariant P) (h : EveryBus P s) : EveryBus P s.settleBlockEnd := by
  by_cases hrun : s.startup = .run
  · intro c hc
    rw [State.buses_settleBlockEnd hrun] at hc
    obtain ⟨x, hx, rfl⟩ := List.mem_map.mp hc
    obtain ⟨i, hi, rfl⟩ := List.mem_mapIdx.mp hx
    have hb : P s.busesToFix[i] := busesToFix hP h _ (List.getElem_mem hi)
    exact hP.keeps .settleMute (hP.keeps (.fix _) (hP.keeps .slew (hP.keeps (.retarget _) hb)))
  · exact h.of_buses (by simp [State.settleBlockEnd, hrun])

theorem mixSample (hP : BusInvariant P) (h : EveryBus P s) (programme aux : List Int) :
    EveryBus P (s.mixSample programme aux) := by
  have hbuses : (s.mixSample programme aux).buses = (s.busOutputs programme aux).map fun o => o.2.2.2 := by
    simp [State.mixSample, State.scanMeters, apply_ite State.buses]
  intro c hc
  rw [hbuses] at hc
  obtain ⟨o, ho, rfl⟩ := List.mem_map.mp hc
  obtain ⟨i, hi, rfl⟩ := List.mem_mapIdx.mp ho
  exact hP.keeps (.sample _) (h _ (List.getElem_mem hi))

theorem houseSample (hP : BusInvariant P) (h : EveryBus P s) : EveryBus P s.houseSample := by
  have hrun : EveryBus P s.runSample := by
    unfold State.runSample
    dsimp only
    split
    · refine mixSample hP ?_ _ _
      exact h
    · exact h
  unfold State.houseSample
  split
  · split
    · exact h
    · exact h
    · exact h
    · exact hrun
  · exact h

theorem load (hP : BusInvariant P) (h : EveryBus P s) : EveryBus P s.load := by
  have hplaced (v : Settings) : ∀ b ∈ placeBuses v s.buses, P b := by
    intro c hc
    obtain ⟨i, hi, rfl⟩ := List.mem_iff_getElem.mp hc
    simp only [placeBuses, List.getElem_zipWith]
    exact hP.keeps (.setDistance _) (hP.keeps (.setTrim _) (h _ (List.getElem_mem _)))
  have hbuses : s.load.buses = (s.applySettings s.store.memory.loaded).buses := by rw [State.load_eq]
  intro c hc
  rw [hbuses, State.applySettings_buses] at hc
  obtain ⟨b, hb, rfl⟩ := List.mem_map.mp hc
  exact hP.keeps .seatDelay (computeDelays hP (hplaced _) _ b hb)

/-! ### Requests -/

theorem takeRequest (hP : BusInvariant P) (h : EveryBus P s) (p : PortId) (r : Request) :
    EveryBus P (takeRequest p r s) := by
  cases hr : Request.leavesBuses r with
  | true => exact h.of_buses (State.buses_takeRequest p s hr)
  | false =>
    cases r with
    | setBusTrim bus trim =>
      simp only [Machine.takeRequest, takeSetBusTrim]
      split
      · exact h.of_buses (State.buses_answer ..)
      · exact (h.onBus hP bus fun _ => .setTrim trim).of_buses (State.buses_answer ..)
    | setBusDistance bus distance =>
      simp only [Machine.takeRequest, takeSetBusDistance]
      split
      · exact h.of_buses (State.buses_answer ..)
      · exact (h.onBus hP bus fun _ => .setDistance _).of_buses (State.buses_answer ..)
    | clearCounters => exact h.of_map hP (fun _ => .clearCounters) (State.buses_answer ..)
    | restart => exact toReset hP .command s
    | _ => cases hr

theorem present (hP : BusInvariant P) (h : EveryBus P s) (p : PortId) (r : Request) : EveryBus P (s.present p r) := by
  have haccept : EveryBus P (s.accept p (requestCode r) (checkRequest p r)) := h.of_buses (State.buses_accept ..)
  unfold State.present State.acceptAndTake
  split
  · exact h
  · split
    · exact h.takeRequest hP p r
    · dsimp only
      split
      · exact haccept.takeRequest hP p r
      · exact haccept

theorem sweep (hP : BusInvariant P) (h : EveryBus P s) (p : PortId) : EveryBus P (s.sweep p) := by
  unfold State.sweep
  split
  · exact h
  · split
    · exact h.takeRequest hP p _
    · exact h

/-! ### Block ends and the passing of time -/

theorem closeBlockEnd (hP : BusInvariant P) (h : EveryBus P s) : EveryBus P s.closeBlockEnd := by
  have hswept := ((h.sweep hP .A).sweep hP .B).sweep hP .C
  unfold State.closeBlockEnd
  split
  · dsimp only
    split
    · exact hswept.settleBlockEnd hP
    · exact hswept
  · exact h

theorem passTicks (hP : BusInvariant P) (h : EveryBus P s) (n : Nat) : EveryBus P (s.passTicks n) := by
  unfold State.passTicks
  split
  · exact h
  · exact h.closeBlockEnd hP

theorem closeBefore (hP : BusInvariant P) (h : EveryBus P s) (d : Option Tick) : EveryBus P (s.closeBefore d) := by
  unfold State.closeBefore
  split
  · exact h
  · split
    · exact h.closeBlockEnd hP
    · exact h

theorem doWork (hP : BusInvariant P) (h : EveryBus P s) (e : Ending) (w : Work) : EveryBus P (s.doWork e w) := by
  unfold State.doWork
  split
  · match w with
    | .evaluation => exact h.of_buses (State.buses_evaluate s)
    | .muteSteps => exact h.stepMutes hP
    | .scene => exact h.of_buses (State.buses_sceneWork e.due s)
    | .levels => exact h
    | .show => exact h.of_buses (State.buses_showWork e.stop s)
    | .links => exact h
  · exact h

theorem runEvents (hP : BusInvariant P) (h : EveryBus P s) (e : Ending) (order : List BlockEvent) (left : List Work) :
    EveryBus P (State.runEvents e order left s) := by
  induction order generalizing left s with
  | nil => exact List.foldlRecOn (motive := EveryBus P) _ _ h fun _ hu w _ => hu.doWork hP e w
  | cons b rest ih =>
    cases b with
    | work w =>
      unfold State.runEvents
      split
      · exact ih (h.doWork hP e w) _
      · exact ih h _
    | take p => exact ih (h.sweep hP p) _

theorem beginBlockEnd (hP : BusInvariant P) (h : EveryBus P s) (order : List BlockEvent) :
    EveryBus P (s.beginBlockEnd order) := by
  have hworked : EveryBus P (if s.countBlock.markDue.startup = .run then s.countBlock.markDue.blockWork order
      else s.countBlock.markDue) := by
    split
    · refine runEvents hP ?_ _ _ _
      exact h
    · exact h
  exact hworked.of_buses (by simp [State.beginBlockEnd, apply_ite State.buses])

theorem runToLoadEnd (hP : BusInvariant P) (h : EveryBus P s) : EveryBus P s.runToLoadEnd := by
  have hfirst : EveryBus P (if s.blockCount.toNat < 2 then { s.closeBlockEnd.markDue with blockEndOpen := true }
      else s) := by
    split
    · exact h.closeBlockEnd hP
    · exact h
  exact (hfirst.closeBlockEnd hP).of_buses (by simp [State.runToLoadEnd, apply_ite State.buses])

theorem readSelection (hP : BusInvariant P) (h : EveryBus P s) (p : PortId) (n : Nat) :
    EveryBus P (s.readSelection p n) := by
  unfold State.readSelection
  dsimp only
  split
  · exact h.closeBlockEnd hP
  all_goals exact (h.closeBlockEnd hP).of_buses (State.buses_onPort ..)

/-! ### Commands -/

/-- Every command completes and keeps the law. -/
theorem completes (hP : BusInvariant P) (h : EveryBus P s) (c : Instr) : Completes c s (EveryBus P) := by
  cases c with
  | startSymbol l ticks =>
    have hpassed := h.passTicks hP ticks
    by_cases hrun : (s.passTicks ticks).startup = .run
    · exact ⟨_, execStartSymbol_run hrun,
        hpassed.of_buses (ActsOnLink.start (N := fun _ => True) (l := l) trivial).buses⟩
    · exact ⟨_, execStartSymbol_before_run hrun, hpassed⟩
  | feedBlock l symbols => exact ⟨_, rfl, h.of_buses (exec_feedBlock_acts rfl).buses⟩
  | gapTimerExpiry l =>
    exact ⟨_, rfl, (h.closeBefore hP _).of_buses (ActsOnLink.gapExpiry (N := fun _ => True) (l := l) trivial).buses⟩
  | holdoverTimerExpiry l =>
    exact ⟨_, rfl, (h.closeBefore hP _).of_buses (ActsOnLink.holdExpiry (N := fun _ => True) (l := l) trivial).buses⟩
  | houseSample => exact ⟨_, rfl, (h.closeBlockEnd hP).houseSample hP⟩
  | blockEnd order =>
    refine ⟨_, rfl, ?_⟩
    split
    · exact (h.closeBlockEnd hP).beginBlockEnd hP order
    · exact h.closeBlockEnd hP
  | requestSelection p sent =>
    refine ⟨_, rfl, ?_⟩
    split
    · exact h
    · split
      · exact h.readSelection hP p _
      · exact h.of_buses (State.buses_requestSelection ..)
  | readSelection p n => exact ⟨_, rfl, h.readSelection hP p n⟩
  | storeWriteEnd readBack =>
    refine ⟨_, rfl, ?_⟩
    split
    · exact h
    · exact h.of_buses (State.buses_notify ..)
  | powerOn => exact ⟨_, rfl, toReset hP .powerOn s⟩
  | resetPin =>
    refine ⟨_, rfl, ?_⟩
    split
    · exact toReset hP .pin s
    · exact h
  | resetEnd => exact ⟨_, rfl, h.of_buses (by simp [apply_ite State.buses])⟩
  | loadEnd =>
    refine ⟨_, rfl, ?_⟩
    split
    · exact (h.runToLoadEnd hP).load hP
    · exact h
  | refEdge period => exact ⟨_, rfl, h.of_buses (by simp [State.sawEdge, apply_ite State.buses])⟩
  | refMissingPeriod => exact ⟨_, rfl, h.of_buses (by simp [State.sawEdge, apply_ite State.buses])⟩
  | pullInEnd => exact ⟨_, rfl, h⟩
  | powerLoss => exact ⟨_, rfl, toReset hP .powerOn s⟩
  | _ => exact ⟨_, rfl, h.present hP _ _⟩

/-- What reset meets and every change of a bus keeps, every step keeps of every bus. -/
theorem keptByEveryStep (hP : BusInvariant P) : KeptByEveryStep (EveryBus P) :=
  keptByEveryStep_of_completes (fun _ _ h => h) (fun _ h => h.passTicks hP 1) fun c _ h => h.completes hP c

end EveryBus

/-! ### Delays (R139, R145, R147) -/

/-- A bus's delays lie within 0..2,047 and its slew wait within 0..7. -/
def Bus.DelaysInRange (b : Bus) : Prop :=
  b.computed ≤ 2047 ∧ b.applied ≤ 2047 ∧ b.wait ≤ 7 ∧ b.inDelay ≤ 2047

namespace Bus.DelaysInRange

variable {b : Bus}

theorem slew (h : b.DelaysInRange) : b.slew.DelaysInRange := by
  obtain ⟨hcomputed, happlied, hwait, hinDelay⟩ := h
  have hbetween := Bus.applied_slew_between ⟨b.applied.zero_le, b.computed.zero_le⟩ ⟨happlied, hcomputed⟩
  have hwait' : b.slew.wait ≤ 7 := by
    have hslew := b.slew_cases
    omega
  rw [Bus.slew_eq]
  exact ⟨hcomputed, hbetween.2, hwait', hinDelay⟩

/-- Of the changes of a bus, only the computation, the seating, the slew and the fixing of delays touch them; the
computed delay is limited to 2,047 (R145). -/
theorem busInvariant : BusInvariant Bus.DelaysInRange where
  reset := by unfold Bus.DelaysInRange; decide
  keeps := by
    intro b c hchange h
    obtain ⟨hcomputed, happlied, hwait, hinDelay⟩ := h
    cases hchange with
    | computeDelay c far => exact ⟨Nat.min_le_left .., happlied, hwait, hinDelay⟩
    | seatDelay => exact ⟨hcomputed, hcomputed, Nat.zero_le 7, hinDelay⟩
    | slew => exact slew ⟨hcomputed, happlied, hwait, hinDelay⟩
    | fix master => exact ⟨hcomputed, happlied, hwait, happlied⟩
    | retarget held =>
      rw [Bus.retarget_eq]
      exact ⟨hcomputed, happlied, hwait, hinDelay⟩
    | setTrim _ | setDistance _ | clearCounters | stepMute | settleMute | sample _ =>
      exact ⟨hcomputed, happlied, hwait, hinDelay⟩

end Bus.DelaysInRange

/-- Settles O12: `DelayLaw` says `Bus.DelaysInRange` of every bus, which reset meets and every change of a bus keeps. -/
theorem delayLawKept : Obligations.DelayLawKept := EveryBus.keptByEveryStep Bus.DelaysInRange.busInvariant

end Sys2Proof.Machine
end

section
/-! SUPPORT. What a port engine holds (R153) across a step: what leaves every port's exchange alone, for O9. -/

namespace Sys2Proof.Machine

/-! ### A port's exchange -/

/-- What a port engine holds of an exchange: its waiting request, its held response and the mark of an answer that still
follows the block end. `Port.Lawful` speaks of these alone (`Port.lawful_of_exchange`). -/
def Port.exchange (x : Port) : Option Request × Option Response × Option Request := (x.waiting, x.response, x.live)

/-- The exchange at a port of the part. -/
def State.exchange (q : PortId) (s : State) : Option Request × Option Response × Option Request := (s.port q).exchange

theorem Port.lawful_of_exchange {x y : Port} (h : x.Lawful) (hxy : y.exchange = x.exchange) : y.Lawful := by
  simp only [Port.exchange, Prod.mk.injEq] at hxy
  obtain ⟨hwaiting, hresponse, hlive⟩ := hxy
  rwa [Port.Lawful, hwaiting, hresponse, hlive]

section
variable (q : PortId) (s : State)

theorem State.exchange_of_port {s t : State} (h : t.port q = s.port q) : t.exchange q = s.exchange q :=
  congrArg Port.exchange h

/-! ### The shared operations -/

/-- A change of a port that leaves its exchange alone leaves every port's alone. -/
theorem State.exchange_onPort {f : Port → Port} (hf : ∀ x, (f x).exchange = x.exchange) (p : PortId) :
    (s.onPort p f).exchange q = s.exchange q := by
  rw [State.exchange, State.port_onPort]
  split
  · exact hf _
  · rfl

@[simp] theorem State.exchange_notify (p : PortId) (n : Notice) : (s.notify p n).exchange q = s.exchange q :=
  State.exchange_onPort q s (f := Port.raise n) (fun _ => rfl) p

@[simp] theorem State.exchange_notifyAll (n : Notice) : (s.notifyAll n).exchange q = s.exchange q := by
  simp [State.notifyAll]

@[simp] theorem State.exchange_notifyServer (l : LinkId) (n : Notice) :
    (s.notifyServer l n).exchange q = s.exchange q := by simp [State.notifyServer]

@[simp] theorem State.exchange_onLink (l : LinkId) (f : Link → Link) : (s.onLink l f).exchange q = s.exchange q :=
  State.exchange_of_port q (State.port_onLink ..)

@[simp] theorem State.exchange_onSel (f : Selector → Selector) : (s.onSel f).exchange q = s.exchange q :=
  State.exchange_of_port q (State.port_onSel ..)

@[simp] theorem State.exchange_onRoom (f : Room → Room) : (s.onRoom f).exchange q = s.exchange q :=
  State.exchange_of_port q (State.port_onRoom ..)

@[simp] theorem State.exchange_onScene (f : Scene → Scene) : (s.onScene f).exchange q = s.exchange q :=
  State.exchange_of_port q (State.port_onScene ..)

@[simp] theorem State.exchange_onShow (f : Show → Show) : (s.onShow f).exchange q = s.exchange q := by
  cases q <;> rfl

/-! ### Links (chapters 1 to 3) -/

theorem ActsOnLink.exchange {l : LinkId} {N : Notice → Prop} {s t : State} (h : ActsOnLink l N s t) (q : PortId) :
    t.exchange q = s.exchange q := by
  rw [State.exchange, h.ports q]
  rfl

@[simp] theorem State.exchange_setPhase (l : LinkId) (ph : Phase) : (s.setPhase l ph).exchange q = s.exchange q :=
  State.exchange_onLink ..

@[simp] theorem State.exchange_setLinkState (l : LinkId) (st : LinkState) :
    (s.setLinkState l st).exchange q = s.exchange q :=
  (ActsOnLink.setLinkState (N := fun _ => True) st trivial).exchange q

@[simp] theorem State.exchange_enterSearch (l : LinkId) : (s.enterSearch l).exchange q = s.exchange q :=
  (ActsOnLink.enterSearch (N := fun _ => True) trivial).exchange q

/-! ### The selector (chapter 4) -/

@[simp] theorem State.exchange_setSel (st : SelState) : (s.setSel st).exchange q = s.exchange q :=
  State.exchange_onSel ..

@[simp] theorem State.exchange_setAlign (a : AlignStatus) : (s.setAlign a).exchange q = s.exchange q :=
  State.exchange_onSel ..

@[simp] theorem State.exchange_setRevertCount (n : Nat) : (s.setRevertCount n).exchange q = s.exchange q :=
  State.exchange_onSel ..

@[simp] theorem State.exchange_moveProgramme (sel : Selector) (cueing : Show) (x : ProgLink) :
    (s.moveProgramme sel cueing x).exchange q = s.exchange q := by
  rw [State.exchange, State.port_moveProgramme]
  rfl

@[simp] theorem State.exchange_enterCrossfade (out : Option ProgLink) (inc : ProgLink) :
    (s.enterCrossfade out inc).exchange q = s.exchange q := by
  cases out with
  | none => rw [State.enterCrossfade_none, State.exchange_moveProgramme]
  | some x => rw [State.enterCrossfade_some, State.exchange_moveProgramme]

@[simp] theorem State.exchange_reverse (away back : ProgLink) (k : Nat) :
    (s.reverse away back k).exchange q = s.exchange q := by
  rw [State.reverse_eq, State.exchange_moveProgramme]

@[simp] theorem State.exchange_pruneStandby (x : ProgLink) : (s.pruneStandby x).exchange q = s.exchange q := by
  simp [State.pruneStandby, State.prune_eq_onLink, apply_ite (State.exchange q)]

@[simp] theorem State.exchange_alignStandby : s.alignStandby.exchange q = s.exchange q := by
  unfold State.alignStandby State.offer
  split
  · simp
  · split
    · split
      · simp
      · split
        · simp
        · simp [apply_ite (State.exchange q)]
    · simp

@[simp] theorem State.exchange_crossfadeStep : s.crossfadeStep.exchange q = s.exchange q := by
  unfold State.crossfadeStep
  split
  · simp [apply_ite (State.exchange q)]
  · rfl

@[simp] theorem State.exchange_decideStep : s.decideStep.exchange q = s.exchange q := by
  unfold State.decideStep
  split
  · simp [State.decideIdle, apply_ite (State.exchange q)]
  · simp [State.decideOn, State.revertTest, apply_ite (State.exchange q)]
  · rfl

@[simp] theorem State.exchange_evaluate : s.evaluate.exchange q = s.exchange q := by simp [State.evaluate]

@[simp] theorem State.exchange_force (x : ProgLink) : (s.force x).exchange q = s.exchange q := by
  unfold State.force State.forceReverse
  split
  · simp
  · simp [apply_ite (State.exchange q)]
  · simp [apply_ite (State.exchange q)]

/-! ### The scene table (chapter 5) -/

@[simp] theorem State.exchange_applyRecord (x : ProgLink) (tracks : Nat) (r : Tagged) :
    (s.applyRecord x tracks r).exchange q = s.exchange q := by
  unfold State.applyRecord
  split
  · cases q <;> rfl
  · simp

@[simp] theorem State.exchange_sceneWork (due : Option (ProgLink × FrameIndex × Nat)) :
    (s.sceneWork due).exchange q = s.exchange q := by
  have hstepped : ({ s with scene := s.scene.stepRamps } : State).exchange q = s.exchange q := by cases q <;> rfl
  unfold State.sceneWork
  dsimp only
  split
  · exact hstepped
  · exact List.foldlRecOn (motive := fun t => t.exchange q = s.exchange q) _ _
      ((State.exchange_onLink ..).trans hstepped) fun t ht r _ => (State.exchange_applyRecord q t _ _ r).trans ht

/-! ### Cues and the show position (chapter 7) -/

theorem State.exchange_push {p : PortId} {programme master : Option Nat} {ramp : Nat} {s t : State}
    (h : s.push p programme master ramp = some t) : t.exchange q = s.exchange q := by
  rw [State.push_eq] at h
  split at h
  · cases h
  · cases h
    exact State.exchange_onRoom ..

theorem State.exchange_pop {p : PortId} {ramp : Nat} {status : Status} {s t : State}
    (h : s.pop p ramp = (status, t)) : t.exchange q = s.exchange q := by
  cases htop : s.room.stack.getLast? with
  | none =>
    cases (State.pop_empty htop).symm.trans h
    rfl
  | some e =>
    by_cases hp : p = e.owner ∨ p = .C
    · cases (State.pop_allowed htop hp).symm.trans h
      simp [apply_ite (State.exchange q), State.popped, State.restore]
    · cases (State.pop_refused htop hp).symm.trans h
      rfl

@[simp] theorem State.exchange_cueAction (p : PortId) (a : CueAction) :
    (s.cueAction p a).1.exchange q = s.exchange q := by
  cases a with
  | programmeLevel _ _ | muteGroup _ _ => exact State.exchange_onRoom ..
  | notify => rfl
  | roomPush programme master ramp =>
    simp only [State.cueAction]
    split
    · exact State.exchange_push q ‹_›
    · rfl
  | roomPop ramp =>
    simp only [State.cueAction]
    split <;> exact State.exchange_pop q ‹_›

@[simp] theorem State.exchange_logFiring (p : PortId) (e : LogEntry) :
    (s.onPort p (Port.logFiring e)).exchange q = s.exchange q :=
  State.exchange_onPort q s (f := Port.logFiring e) (fun _ => rfl) p

@[simp] theorem State.exchange_countRefused (p : PortId) :
    (s.onPort p Port.countRefused).exchange q = s.exchange q :=
  State.exchange_onPort q s (f := Port.countRefused) (fun _ => rfl) p

@[simp] theorem State.exchange_fire (c : Cue) : (s.fire c).exchange q = s.exchange q := by
  unfold State.fire
  dsimp only
  split <;> simp

@[simp] theorem exchange_evaluateCues (pos : ShowPos) (n : Nat) (cues : List Cue) :
    (evaluateCues pos n cues s).2.exchange q = s.exchange q := by
  induction cues generalizing s with
  | nil => rfl
  | cons c rest ih =>
    unfold evaluateCues
    split
    · exact ih s
    · split
      · dsimp only
        split <;> simp [ih]
      · exact ih s

@[simp] theorem State.exchange_closeSegment (g : Segment) : (s.closeSegment g).exchange q = s.exchange q := by
  unfold State.closeSegment
  split
  · rfl
  · simp [State.evaluateSegment, apply_ite (State.exchange q)]

@[simp] theorem exchange_passStamp (l : LinkId) (start : FrameIndex) (n : Nat) (acc : State × Segment) (σ : Stamp) :
    (passStamp l start n acc σ).1.exchange q = acc.1.exchange q := by
  unfold passStamp
  dsimp only
  split
  · simp [State.locateAt]
  · rfl

@[simp] theorem State.exchange_passFrames (l : LinkId) (start : FrameIndex) (n : Nat) :
    (s.passFrames l start n).exchange q = s.exchange q := by
  have hpassed : ((s.link l).stamps.foldl (passStamp l start n) (s, none)).1.exchange q = s.exchange q :=
    List.foldlRecOn (motive := fun acc : State × Segment => acc.1.exchange q = s.exchange q) _ _ rfl
      fun acc hacc σ _ => (exchange_passStamp q l start n acc σ).trans hacc
  exact (State.exchange_closeSegment ..).trans hpassed

@[simp] theorem State.exchange_showWork (stop : Option (ProgLink × FrameIndex)) :
    (s.showWork stop).exchange q = s.exchange q := by
  unfold State.showWork State.applyLocate
  dsimp only
  split <;> simp [apply_ite (State.exchange q)]

/-! ### House samples, the close and the load (chapters 6, 9 and 11) -/

@[simp] theorem State.exchange_scanMeters (finals : List Int) : (s.scanMeters finals).exchange q = s.exchange q := by
  cases q <;> rfl

@[simp] theorem State.exchange_mixSample (programme aux : List Int) :
    (s.mixSample programme aux).exchange q = s.exchange q := by
  have houts (buses : List Bus) (frame : List Int) :
      ({ s with buses := buses, outFrame := frame } : State).exchange q = s.exchange q := by cases q <;> rfl
  simp [State.mixSample, houts, apply_ite (State.exchange q)]

@[simp] theorem State.exchange_houseSample : s.houseSample.exchange q = s.exchange q := by
  have hrun : s.runSample.exchange q = s.exchange q := by
    unfold State.runSample
    dsimp only
    split
    · rw [State.exchange_mixSample]
      cases q <;> rfl
    · cases q <;> rfl
  unfold State.houseSample
  split
  · split
    · rfl
    · rfl
    · cases q <;> rfl
    · exact Eq.trans (by cases q <;> rfl) hrun
  · rfl

theorem State.exchange_fixBlock_dropMarks : s.fixBlock.dropMarks.exchange q = s.exchange q := by cases q <;> rfl

@[simp] theorem State.exchange_load : s.load.exchange q = s.exchange q := by
  rw [State.load_eq]
  cases q <;> rfl

/-! ### The reference block (chapter 11) -/

@[simp] theorem State.exchange_sawEdge (seen : Bool) : (s.sawEdge seen).exchange q = s.exchange q := by cases q <;> rfl

@[simp] theorem State.exchange_moveRef (f : Reference → Reference) : (s.moveRef f).exchange q = s.exchange q := by
  have href : ({ s with ref := f s.ref } : State).exchange q = s.exchange q := by cases q <;> rfl
  simp [State.moveRef, apply_ite (State.exchange q), href]

end

end Sys2Proof.Machine
end

section
/-! SUPPORT. The law of the port engines across a step (R153): O9. An answer ends the waiting of the request that it
answers, and an accepted request discards what is held; nothing else touches an exchange but to form or release a held
answer. -/

namespace Sys2Proof.Machine

theorem engineLaw_iff {s : State} : EngineLaw s ↔ ∀ q, (s.port q).Lawful :=
  ⟨fun ⟨hA, hB, hC⟩ q => by cases q <;> assumption, fun h => ⟨h .A, h .B, h .C⟩⟩

namespace EngineLaw

variable {s t : State}

theorem port (h : EngineLaw s) (q : PortId) : (s.port q).Lawful := engineLaw_iff.mp h q

theorem of_exchange (h : EngineLaw s) (hexchange : ∀ q, t.exchange q = s.exchange q) : EngineLaw t :=
  engineLaw_iff.mpr fun q => Port.lawful_of_exchange (h.port q) (hexchange q)

/-! ### Changes of one port -/

theorem onPort (h : EngineLaw s) {p : PortId} {f : Port → Port} (hf : (f (s.port p)).Lawful) :
    EngineLaw (s.onPort p f) := engineLaw_iff.mpr fun q => by
  rw [State.port_onPort]
  split
  case isTrue hq => rwa [hq]
  case isFalse => exact h.port q

/-- A port at which no request waits is lawful whatever it holds. -/
theorem onPort_idle (h : EngineLaw s) {p : PortId} {f : Port → Port} (hf : (f (s.port p)).waiting = none) :
    EngineLaw (s.onPort p f) := h.onPort fun hwaiting => by simp [hf] at hwaiting

theorem answer (h : EngineLaw s) (p : PortId) (code : Byte) (status : Status) (payload : List Byte) :
    EngineLaw (s.answer p code status payload) := h.onPort_idle rfl

theorem answerLive (h : EngineLaw s) (p : PortId) (r : Request) (code : Byte) (status : Status)
    (payload : List Byte) : EngineLaw ((s.answer p code status payload).setLive p r) :=
  (h.answer p code status payload).onPort_idle (by rw [State.port_answer, if_pos rfl])

theorem toReset (kind : ResetKind) (s : State) : EngineLaw (s.toReset kind) :=
  engineLaw_iff.mpr fun q => by cases q <;> exact fun _ => ⟨rfl, rfl⟩

/-! ### Requests taken -/

/-- Each request is answered after a change that leaves the exchanges alone, but a RESTART resets the part. -/
theorem takeRequest (h : EngineLaw s) (p : PortId) (r : Request) : EngineLaw (takeRequest p r s) := by
  have hanswer {u : State} (hu : ∀ q, u.exchange q = s.exchange q) {code : Byte} {status : Status}
      {payload : List Byte} : EngineLaw (u.answer p code status payload) := (h.of_exchange hu).answer ..
  have hport {f : Port → Port} (hf : ∀ x, (f x).exchange = x.exchange) {code : Byte} {status : Status}
      {payload : List Byte} : EngineLaw ((s.onPort p f).answer p code status payload) :=
    hanswer (State.exchange_onPort · s hf p)
  cases r with
  | restart => exact toReset .command s
  | getStatus _ | cueList _ =>
    simp only [Machine.takeRequest, takeGetStatus, takeCueList]
    split
    · exact h.answer ..
    · exact h.answerLive ..
  | getSlot _ _ =>
    simp only [Machine.takeRequest, takeGetSlot]
    split
    · exact h.answerLive ..
    · exact h.answer ..
  | getPosition => exact h.answerLive ..
  | getResetCause => exact h.answer ..
  | getCounters _ =>
    simp only [Machine.takeRequest, takeGetCounters]
    split <;> exact h.answer ..
  | getMeters _ =>
    simp only [Machine.takeRequest, takeGetMeters]
    split
    · exact h.answer ..
    · exact hport (by exact fun _ => rfl)
  | getNotices | setNoticeMask _ | setNoticeEnable _ | cueLog => exact hport (by exact fun _ => rfl)
  | clearCounters | ackResetCause => exact hanswer fun q => by cases q <;> rfl
  | storeSettings =>
    simp only [Machine.takeRequest, takeStoreSettings]
    split
    · exact h.answer ..
    · exact hanswer fun q => by cases q <;> rfl
  | cueAdd _ | cueCancel _ =>
    simp only [Machine.takeRequest, takeCueAdd, takeCueCancel]
    repeat' split
    all_goals exact hanswer fun q => by simp
  | roomPush _ _ _ =>
    simp only [Machine.takeRequest, takeRoomPush]
    split
    · exact h.answer ..
    · exact hanswer fun q => State.exchange_push q ‹_›
  | roomPop _ =>
    simp only [Machine.takeRequest, takeRoomPop]
    split <;> exact hanswer fun q => State.exchange_pop q ‹_›
  | linkRestart _ | linkDisable _ | linkEnable _ =>
    exact hanswer fun q => by simp [apply_ite (State.exchange q)]
  | handover | forceProgramme _ | setPrimary _ | setRevert _ =>
    simp only [Machine.takeRequest, takeHandover, takeForceProgramme, takeSetPrimary, takeSetRevert]
    repeat' split
    all_goals exact hanswer fun q => by simp
  | setProgrammeLevel _ _ | setMasterLevel _ _ => exact hanswer fun q => State.exchange_onRoom ..
  | muteGroup _ _ | roomSlotSet _ _ _ _ _ | roomSlotGain _ _ _ | roomSlotClear _ =>
    simp only [Machine.takeRequest, takeMuteGroup, takeRoomSlotSet, takeRoomSlotGain, takeRoomSlotClear, State.setGroup]
    repeat' split
    all_goals exact hanswer fun q => by simp
  | setBusTrim _ _ | setBusDistance _ _ | setAirTemp _ | setMuteGroup _ _ =>
    simp only [Machine.takeRequest, takeSetBusTrim, takeSetBusDistance, takeSetAirTemp, takeSetMuteGroup]
    repeat' split
    all_goals exact hanswer fun q => by cases q <;> rfl

/-! ### Requests accepted (R152, R153) -/

/-- A request that begins to wait finds what was held discarded (R153). -/
theorem accept (h : EngineLaw s) (p : PortId) (code : Byte) (c : Checked) : EngineLaw (s.accept p code c) := by
  have hdiscarded : EngineLaw (s.onPort p Port.discard) := h.onPort fun _ => ⟨rfl, rfl⟩
  unfold State.accept State.settleRequest
  split
  · exact h.of_exchange (State.exchange_onPort · s (f := Port.refuse code) (fun _ => rfl) p)
  · split
    · exact hdiscarded.answer ..
    · split
      · exact hdiscarded.answer ..
      · refine hdiscarded.onPort fun _ => ?_
        rw [State.port_onPort_self]
        exact ⟨rfl, rfl⟩

theorem present (h : EngineLaw s) (p : PortId) (r : Request) : EngineLaw (s.present p r) := by
  have haccept : EngineLaw (s.accept p (requestCode r) (checkRequest p r)) := h.accept ..
  unfold State.present State.acceptAndTake
  split
  · exact h
  · split
    · exact h.takeRequest p r
    · dsimp only
      split
      · exact haccept.takeRequest p r
      · exact haccept

theorem sendFiller (h : EngineLaw s) (p : PortId) (n : Nat) : EngineLaw (s.onPort p (Port.sendFiller n)) :=
  h.of_exchange (State.exchange_onPort · s (f := Port.sendFiller n) (fun _ => rfl) p)

theorem requestSelection (h : EngineLaw s) (p : PortId) (sent : List Byte) :
    EngineLaw (s.requestSelection p sent) := by
  unfold State.requestSelection
  split
  · exact h
  · exact h.sendFiller ..
  all_goals exact (h.accept ..).sendFiller ..

/-! ### Block ends and the passing of time -/

theorem sweep (h : EngineLaw s) (p : PortId) : EngineLaw (s.sweep p) := by
  unfold State.sweep
  split
  · exact h
  · split
    · exact h.takeRequest ..
    · exact h

/-- A port whose answer follows the block end has no request waiting. -/
theorem renderLive (h : EngineLaw s) (p : PortId) : EngineLaw (s.renderLive p) := by
  unfold State.renderLive
  split
  · exact h
  · refine h.onPort fun hwaiting => ?_
    obtain ⟨-, hlive⟩ := h.port p hwaiting
    simp_all

theorem settleBlockEnd (h : EngineLaw s) : EngineLaw s.settleBlockEnd := by
  have hrendered {u : State} (hu : EngineLaw u) :
      EngineLaw { ((u.renderLive .A).renderLive .B).renderLive .C with blockEndOpen := false } :=
    ((hu.renderLive .A).renderLive .B).renderLive .C
  unfold State.settleBlockEnd
  dsimp only
  split
  · exact hrendered (h.of_exchange (State.exchange_fixBlock_dropMarks · s))
  · exact hrendered h

theorem closeBlockEnd (h : EngineLaw s) : EngineLaw s.closeBlockEnd := by
  have hswept := ((h.sweep .A).sweep .B).sweep .C
  unfold State.closeBlockEnd
  split
  · dsimp only
    split
    · exact hswept.settleBlockEnd
    · exact hswept
  · exact h

theorem passTicks (h : EngineLaw s) (n : Nat) : EngineLaw (s.passTicks n) := by
  unfold State.passTicks
  split
  · exact h
  · exact h.closeBlockEnd

theorem closeBefore (h : EngineLaw s) (d : Option Tick) : EngineLaw (s.closeBefore d) := by
  unfold State.closeBefore
  split
  · exact h
  · split
    · exact h.closeBlockEnd
    · exact h

theorem doWork (h : EngineLaw s) (e : Ending) (w : Work) : EngineLaw (s.doWork e w) := by
  unfold State.doWork
  split
  · match w with
    | .evaluation => exact h.of_exchange (State.exchange_evaluate · s)
    | .muteSteps => exact h
    | .scene => exact h.of_exchange (State.exchange_sceneWork · s e.due)
    | .levels => exact h
    | .show => exact h.of_exchange (State.exchange_showWork · s e.stop)
    | .links => exact h
  · exact h

theorem runEvents (h : EngineLaw s) (e : Ending) (order : List BlockEvent) (left : List Work) :
    EngineLaw (State.runEvents e order left s) := by
  induction order generalizing left s with
  | nil => exact List.foldlRecOn (motive := EngineLaw) _ _ h fun _ hu w _ => hu.doWork e w
  | cons b rest ih =>
    cases b with
    | work w =>
      unfold State.runEvents
      split
      · exact ih (h.doWork e w) _
      · exact ih h _
    | take p => exact ih (h.sweep p) _

theorem beginBlockEnd (h : EngineLaw s) (order : List BlockEvent) : EngineLaw (s.beginBlockEnd order) := by
  have hcounted : EngineLaw s.countBlock.markDue := h
  have hworked : EngineLaw (if s.countBlock.markDue.startup = .run then s.countBlock.markDue.blockWork order
      else s.countBlock.markDue) := by
    split
    · refine runEvents ?_ _ _ _
      exact hcounted
    · exact hcounted
  have hopened {u : State} (hu : EngineLaw u) :
      EngineLaw (if u.ticking then { u with blockEndOpen := true } else u) := by
    split
    · exact hu
    · exact hu
  exact hopened hworked

theorem runToLoadEnd (h : EngineLaw s) : EngineLaw s.runToLoadEnd := by
  have hfirst : EngineLaw (if s.blockCount.toNat < 2 then { s.closeBlockEnd.markDue with blockEndOpen := true }
      else s) := by
    split
    · exact h.closeBlockEnd
    · exact h
  have hrun {u : State} (hu : EngineLaw u) :
      EngineLaw (if u.tick.toNat < 40960 then
        { u with
          tick := 40960, blockCount := 2, samplesDone := 16, outFrame := List.replicate 64 0, outMark := false }
      else u) := by
    split
    · exact hu
    · exact hu
  exact hrun hfirst.closeBlockEnd

/-! ### Read selections (R155) -/

/-- A frame sent releases what is held, and leaves what waits. -/
theorem readOut {x : Port} (h : x.Lawful) (n : Nat) : (x.readOut n).Lawful := by
  have hreleased : x.release.Lawful := by
    unfold Port.release
    split
    · exact h
    · exact h
    · exact fun hwaiting => ⟨rfl, (h hwaiting).2⟩
  unfold Port.readOut
  dsimp only
  split
  · exact hreleased
  · exact h

theorem readSelection (h : EngineLaw s) (p : PortId) (n : Nat) : EngineLaw (s.readSelection p n) := by
  have hclosed := h.closeBlockEnd
  unfold State.readSelection
  dsimp only
  split
  · exact hclosed
  · exact hclosed.sendFiller ..
  all_goals exact hclosed.onPort (readOut (hclosed.port p) n)

/-! ### Commands -/

/-- Every command completes and keeps the law. -/
theorem completes (h : EngineLaw s) (c : Instr) : Completes c s EngineLaw := by
  cases c with
  | startSymbol l ticks =>
    have hpassed := h.passTicks ticks
    by_cases hrun : (s.passTicks ticks).startup = .run
    · exact ⟨_, execStartSymbol_run hrun,
        hpassed.of_exchange (ActsOnLink.start (N := fun _ => True) (l := l) trivial).exchange⟩
    · exact ⟨_, execStartSymbol_before_run hrun, hpassed⟩
  | feedBlock l symbols => exact ⟨_, rfl, h.of_exchange (exec_feedBlock_acts rfl).exchange⟩
  | gapTimerExpiry l =>
    exact ⟨_, rfl, (h.closeBefore _).of_exchange (ActsOnLink.gapExpiry (N := fun _ => True) (l := l) trivial).exchange⟩
  | holdoverTimerExpiry l =>
    exact ⟨_, rfl, (h.closeBefore _).of_exchange (ActsOnLink.holdExpiry (N := fun _ => True) (l := l) trivial).exchange⟩
  | houseSample => exact ⟨_, rfl, h.closeBlockEnd.of_exchange (State.exchange_houseSample · _)⟩
  | blockEnd order =>
    refine ⟨_, rfl, ?_⟩
    split
    · exact h.closeBlockEnd.beginBlockEnd order
    · exact h.closeBlockEnd
  | requestSelection p sent =>
    refine ⟨_, rfl, ?_⟩
    split
    · exact h
    · split
      · exact h.readSelection ..
      · exact h.requestSelection ..
  | readSelection p n => exact ⟨_, rfl, h.readSelection p n⟩
  | storeWriteEnd readBack =>
    refine ⟨_, rfl, ?_⟩
    split
    · exact h
    · refine EngineLaw.of_exchange ?_ (State.exchange_notify · _ .C .storeDone)
      exact h
  | powerOn => exact ⟨_, rfl, toReset .powerOn s⟩
  | resetPin =>
    refine ⟨_, rfl, ?_⟩
    split
    · exact toReset .pin s
    · exact h
  | resetEnd =>
    refine ⟨_, rfl, ?_⟩
    split
    · exact h
    · exact h
  | loadEnd =>
    refine ⟨_, rfl, ?_⟩
    split
    · exact h.runToLoadEnd.of_exchange (State.exchange_load · _)
    · exact h
  | refEdge period => exact ⟨_, rfl, h.of_exchange fun q => by simp [apply_ite (State.exchange q)]⟩
  | refMissingPeriod => exact ⟨_, rfl, h.of_exchange fun q => by simp [apply_ite (State.exchange q)]⟩
  | pullInEnd => exact ⟨_, rfl, h⟩
  | powerLoss => exact ⟨_, rfl, toReset .powerOn s⟩
  | _ => exact ⟨_, rfl, h.present _ _⟩

end EngineLaw

/-- Settles O9: the law is kept by every command (`EngineLaw.completes`), since a request waits only where what was held
is discarded (`EngineLaw.accept`) and is answered only when it stops waiting (`EngineLaw.takeRequest`). -/
theorem engineLawKept : Obligations.EngineLawKept :=
  keptByEveryStep_of_completes (fun _ _ h => h) (fun _ h => h.passTicks 1) fun c _ h => h.completes c

end Sys2Proof.Machine
end

section
/-! SUPPORT. The step, the idle tick and the resets (sections 11.1, 11.3 and 11.5): O1, O2 and O55. -/

namespace Sys2Proof.Machine

/-! ### Steps (log 1) -/

theorem step_idle {s : State} (h : s.pending = []) : step s = .next (s.passTicks 1) := by
  simp only [step, h]

/-- Settles O1: the step is a match on the queue. -/
theorem stepTakesFrontCommand : Obligations.StepTakesFrontCommand := by
  unfold Obligations.StepTakesFrontCommand
  intro c rest s h
  simp only [step, h]

/-! ### One tick (log 2) -/

/-- A tick may pass: the counter runs, the block has house samples to come, and the next one is not the next tick. -/
theorem State.min_one_runLimit (s : State) :
    min 1 s.runLimit =
      if s.ticking = true ∧ s.samplesDone < 32 ∧ s.tick.toNat % 512 < 511 then 1 else 0 := by
  simp only [State.runLimit, State.tickOffset, Bool.and_eq_true, decide_eq_true_eq]
  split
  case isTrue hruns =>
    simp only [hruns.1, hruns.2, true_and]
    split <;> omega
  case isFalse hstands => rw [if_neg fun hruns => hstands ⟨hruns.1, hruns.2.1⟩, Nat.min_zero]

theorem State.runOn_one (s : State) :
    s.runOn 1 =
      { s with
        tick := if s.ticking = true ∧ s.samplesDone < 32 ∧ s.tick.toNat % 512 < 511 then s.tick + 1 else s.tick } := by
  rw [State.runOn, State.min_one_runLimit]
  split
  · rfl
  · rw [BitVec.add_zero]

/-- Settles O2: the tick that passes is that of `State.runOn_one`, and it closes an open block end first. -/
theorem idleStepPassesATick : Obligations.IdleStepPassesATick := by
  unfold Obligations.IdleStepPassesATick
  refine ⟨fun s hidle hclosed => ?closed, fun s hidle hopen => ?opened⟩
  case closed =>
    rw [step_idle hidle, State.passTicks_quiet (.inl hclosed), ← State.runOn_one]
    rfl
  case opened =>
    rw [step_idle hidle, State.passTicks, State.min_one_runLimit]
    split
    · rw [if_neg Nat.one_ne_zero, State.runOn_one]
    · rw [if_pos rfl]

/-! ### Resets (R172, R173, R175) -/

theorem State.ticking_iff {s : State} : s.ticking = true ↔ s.startup = .loading ∨ s.startup = .run := by
  simp [State.ticking]

/-- Settles O55: each of the four is a reset (`State.toReset_eq`), after which the power events forget the cause record
and what the reference input showed. -/
theorem resetsRun : Obligations.ResetsRun := by
  unfold Obligations.ResetsRun
  refine ⟨fun p s ht => ?restart, fun s => ?pin, fun s => rfl, fun s => rfl⟩
  case restart => exact congrArg Host.Outcome.next ((State.present_takable ht).trans (State.toReset_eq .command s))
  case pin =>
    have hexec : exec .resetPin s = .next (if s.ticking then s.toReset .pin else s) := rfl
    rw [hexec, State.toReset_eq]
    simp only [State.ticking_iff]

end Sys2Proof.Machine
end

section
/-! SUPPORT. Read selections (R151, R155, R164): the frame that is sent, and what it releases; O33. -/

namespace Sys2Proof.Machine

/-! ### A change of one port -/

/-- A change of one port leaves everything else. -/
theorem State.setPort_only (p : PortId) (x : Port) (s : State) :
    s.setPort p x = s.withPortsOf (s.setPort p x) ∧ OnlyPort p x s (s.setPort p x) := by
  refine ⟨by cases p <;> rfl, State.port_setPort_self .., fun q hq => ?_⟩
  rw [State.port_setPort, if_neg hq]

/-! ### The frame that a read selection carries (R155, R164) -/

theorem Response.length_frame (r : Response) : r.frame.length = r.payload.length + 5 := by
  simp [Response.frame]

theorem clockedOut_frame (r : Response) (n : Nat) :
    clockedOut r.frame n = r.frame.take n ++ List.replicate (n - (r.payload.length + 5)) 0xFF := by
  rw [clockedOut, filler, Response.length_frame]

/-- A refusal is sent before a response, and either before a PENDING (R155). -/
theorem Port.frameToSend_of_final {x : Port} (h : x.live = none) :
    x.frameToSend =
      match x.refusal, x.response, x.waiting with
      | some code, _, _ => ⟨.busy, code, []⟩
      | none, some r, _ => r
      | none, none, some r => ⟨.pending, requestCode r, []⟩
      | none, none, none => ⟨.pending, 0, []⟩ := by
  rw [Port.frameToSend, h]
  cases x.refusal with
  | some code => rfl
  | none =>
    cases x.response with
    | some r => rfl
    | none => cases x.waiting <;> rfl

/-- A frame sent whole releases the refusal, or else the response (R155). -/
theorem Port.release_of_final {x : Port} (h : x.live = none) :
    x.release = { x with refusal := none, response := if x.refusal = none then none else x.response } := by
  unfold Port.release
  cases x.refusal <;> simp [h]

theorem Port.readOut_of_final {x : Port} (h : x.live = none) (n : Nat) :
    x.readOut n =
      { x with
        refusal := if x.frameToSend.payload.length + 5 ≤ n then none else x.refusal,
        response := if x.frameToSend.payload.length + 5 ≤ n ∧ x.refusal = none then none else x.response,
        dataOut := x.frameToSend.frame.take n ++
          List.replicate (n - (x.frameToSend.payload.length + 5)) 0xFF } := by
  rw [Port.readOut, clockedOut_frame, Response.length_frame]
  by_cases hwhole : x.frameToSend.payload.length + 5 ≤ n
  · simp only [hwhole, if_true, true_and, Port.release_of_final h]
  · simp only [hwhole, if_false, false_and]

/-! ### Selections (R151) -/

theorem State.readSelection_closed {s : State} (h : s.blockEndOpen = false) (hpower : s.startup ≠ .off) (p : PortId)
    (n : Nat) :
    s.readSelection p n =
      s.setPort p (if s.startup = .reset then (s.port p).sendFiller n else (s.port p).readOut n) := by
  rw [State.readSelection, State.closeBlockEnd_closed h]
  cases hstartup : s.startup with
  | off => exact absurd hstartup hpower
  | reset | loading | run => simp [State.onPort]

/-- Settles O33: the selection is one change of its port (`State.readSelection_closed`), which `Port.readOut_of_final`
and `Port.frameToSend_of_final` spell out. -/
theorem readSelectionSends : Obligations.ReadSelectionSends := by
  unfold Obligations.ReadSelectionSends
  refine ⟨fun p n s hclosed hfinal hpower => ?sends, fun p s => ⟨rfl, fun rest => rfl⟩⟩
  case sends =>
    refine ⟨_, congrArg Host.Outcome.next (State.readSelection_closed hclosed hpower p n), ?_⟩
    obtain ⟨hframe, hport⟩ := State.setPort_only p _ s
    refine ⟨hframe, ?_⟩
    intro x sent body frame
    have hsent : x.frameToSend = sent := Port.frameToSend_of_final hfinal
    convert hport using 1
    split
    · rfl
    · rw [Port.readOut_of_final hfinal, hsent]
      rfl

end Sys2Proof.Machine
end

section
/-! SUPPORT. The counters (R162, R163): their bytes, and their clearing; O50. -/

namespace Sys2Proof.Machine

/-! ### GET_COUNTERS (R162, R164) -/

theorem takeGetCounters_ok {sect : Nat} (h : sect ≤ 2) (p : PortId) (s : State) :
    takeGetCounters p sect s = s.answer p 0x02 .ok (s.countersPayload sect) := if_neg (Nat.not_lt.mpr h)

theorem State.countersPayload_eq {sect : Nat} (h : sect ≤ 2) (s : State) :
    s.countersPayload sect =
      if sect = 0 then
        (s.linkA.counters.toList ++ s.linkB.counters.toList ++ s.linkC.counters.toList ++
          [s.portA.cuesRefused, s.portB.cuesRefused, s.portC.cuesRefused]).flatMap (wire 4)
      else if sect = 1 then (s.buses.take 32).flatMap fun b => wire 4 b.overload
      else (s.buses.drop 32).flatMap fun b => wire 4 b.overload := by
  simp only [wire_four, funext wire_four]
  match sect, h with
  | 0, _ | 1, _ | 2, _ => rfl

/-! ### CLEAR_COUNTERS (R163) -/

theorem State.frame_clearCounters (p : PortId) (s : State) :
    takeClearCounters p s =
      { (s.withPortsOf (takeClearCounters p s)).withLinksOf (takeClearCounters p s) with
        buses := s.buses.map fun b => { b with overload := 0, clips := 0 } } := by cases p <;> rfl

theorem State.link_clearCounters (p : PortId) (s : State) (l : LinkId) :
    (takeClearCounters p s).link l = (s.link l).clearCounters := by
  rw [takeClearCounters, State.link_answer]
  cases l <;> rfl

theorem State.port_clearCounters (p q : PortId) (s : State) :
    (takeClearCounters p s).port q =
      if q = p then { (s.port q).answered .ok 0x40 [] with cuesRefused := 0 }
      else { s.port q with cuesRefused := 0 } := by
  rw [takeClearCounters, State.port_answer]
  cases q <;> rfl

/-- Settles O50: the read is answered with its section's counters (`State.countersPayload_eq`) after no change, and the
clearing is the three lemmas on what it makes of links, ports and the rest. -/
theorem countersReadAndCleared : Obligations.CountersReadAndCleared := by
  unfold Obligations.CountersReadAndCleared
  refine ⟨fun p sect s hsect ht => ?read, fun p s ht => ?clear⟩
  case read =>
    refine completes_taken rfl ht (takeGetCounters_ok hsect p s) ⟨State.answer_frame .., ?_⟩
    rw [State.countersPayload_eq hsect]
    exact State.answered_of_ports p 0x02 .ok _ fun q => rfl
  case clear =>
    exact completes_taken rfl ht rfl
      ⟨State.frame_clearCounters p s, State.link_clearCounters p s, fun q => State.port_clearCounters p q s⟩

end Sys2Proof.Machine
end

section
/-! SUPPORT. Request frames (R152, R164): what is sent for a request is read back as that request; O18. -/

namespace Sys2Proof.Machine

/-! ### Well-formed operands -/

@[simp] theorem isByte_iff {n : Nat} : isByte n = true ↔ n < 256 := decide_eq_true_iff

@[simp] theorem isHalf_iff {n : Nat} : isHalf n = true ↔ n < 65536 := decide_eq_true_iff

@[simp] theorem levelWf_iff {level : Option Nat} : levelWf level = true ↔ ∀ v ∈ level, v < 65536 := by
  cases level <;> simp [levelWf]

/-! ### Numbers, flags and modes -/

@[simp] theorem readOnOff_boolByte (on : Bool) : readOnOff (boolByte on) = some on := by cases on <;> rfl

@[simp] theorem readMode_modeByte (m : CueMode) : readMode (modeByte m) = some m := by cases m <;> rfl

theorem signed8_ofInt {v : Int} (hlow : -128 ≤ v) (hhigh : v ≤ 127) : signed8 (BitVec.ofInt 8 v) = v := by
  simp only [signed8, BitVec.toNat_ofInt]
  split <;> omega

theorem extractLsb_append_halves (mask : BitVec 16) :
    (mask.extractLsb' 8 8 ++ mask.extractLsb' 0 8 : BitVec 16) = mask :=
  BitVec.extractLsb'_append_extractLsb'_eq_extractLsb' rfl |>.trans (by simp)

/-! ### Values that may be absent -/

/-- What is read of a value behind its presence bit is the value, if any. -/
theorem ite_isSome_getD (level : Option Nat) : (if level.isSome then some (level.getD 0) else none) = level := by
  cases level <;> rfl

theorem getD_lt {level : Option Nat} {n : Nat} (hn : 0 < n) (h : ∀ v ∈ level, v < n) : level.getD 0 < n := by
  cases level with
  | none => exact hn
  | some v => exact h v rfl

theorem getLsbD_presenceByte (programme master : Option Nat) :
    (presenceByte programme master).getLsbD 0 = programme.isSome ∧
      (presenceByte programme master).getLsbD 1 = master.isSome := by
  unfold presenceByte
  cases programme.isSome <;> cases master.isSome <;> exact ⟨rfl, rfl⟩

theorem getLsbD_enablesByte (reel frame offset : Option Nat) :
    (enablesByte reel frame offset).getLsbD 0 = reel.isSome ∧
      (enablesByte reel frame offset).getLsbD 1 = frame.isSome ∧
      (enablesByte reel frame offset).getLsbD 2 = offset.isSome := by
  unfold enablesByte
  cases reel.isSome <;> cases frame.isSome <;> cases offset.isSome <;> exact ⟨rfl, rfl, rfl⟩

/-! ### Payloads -/

theorem readPushLevels_presenceByte {programme master : Option Nat} (hprogramme : ∀ v ∈ programme, v < 65536)
    (hmaster : ∀ v ∈ master, v < 65536) :
    readPushLevels (presenceByte programme master) (byteOf (programme.getD 0 / 256)) (byteOf (programme.getD 0))
      (byteOf (master.getD 0 / 256)) (byteOf (master.getD 0)) = (programme, master) := by
  obtain ⟨hbit0, hbit1⟩ := getLsbD_presenceByte programme master
  rw [readPushLevels, hbit0, hbit1, be16_bytes (getD_lt (by decide) hprogramme),
    be16_bytes (getD_lt (by decide) hmaster), ite_isSome_getD, ite_isSome_getD]

theorem readAction_actionArgs {a : CueAction} (h : a.wf = true) :
    readAction (actionKind a).byte (actionArgs a) = some a := by
  cases a with
  | programmeLevel level ramp =>
    simp only [CueAction.wf, Bool.and_eq_true, isHalf_iff, isByte_iff] at h
    obtain ⟨hlevel, hramp⟩ := h
    refine Eq.trans (b := some (.programmeLevel (be16 _ _) (byteOf ramp).toNat)) rfl ?_
    rw [be16_bytes hlevel, toNat_byteOf hramp]
  | roomPush programme master ramp =>
    simp only [CueAction.wf, Bool.and_eq_true, levelWf_iff, isByte_iff] at h
    obtain ⟨⟨hprogramme, hmaster⟩, hramp⟩ := h
    refine Eq.trans (b := some (.roomPush (readPushLevels _ _ _ _ _).1 (readPushLevels _ _ _ _ _).2
      (byteOf ramp).toNat)) rfl ?_
    rw [readPushLevels_presenceByte hprogramme hmaster, toNat_byteOf hramp]
  | roomPop ramp =>
    refine Eq.trans (b := some (.roomPop (byteOf ramp).toNat)) rfl ?_
    rw [toNat_byteOf (isByte_iff.mp h)]
  | muteGroup group on =>
    refine Eq.trans (b := (readOnOff (boolByte on)).map (.muteGroup (byteOf group).toNat)) rfl ?_
    rw [readOnOff_boolByte, toNat_byteOf (isByte_iff.mp h), Option.map_some]
  | notify => rfl

theorem readCue_cueAdd {c : CueSpec} (h : c.wf = true) : readCue (requestPayload (.cueAdd c)) = some c := by
  simp only [CueSpec.wf, Bool.and_eq_true, isByte_iff] at h
  obtain ⟨⟨⟨⟨hid, hreel⟩, hframe⟩, hoffset⟩, haction⟩ := h
  obtain ⟨hbit0, hbit1, hbit2⟩ := getLsbD_enablesByte c.reel c.frame c.offset
  have hreel : ∀ v ∈ c.reel, v < 256 := fun v hv => isByte_iff.mp ((Option.all_eq_true ..).mp hreel v hv)
  simp only [requestPayload, bytes16, List.cons_append, List.nil_append, readCue, readMode_modeByte,
    readAction_actionArgs haction, hbit0, hbit1, hbit2, toNat_byteOf hid, toNat_byteOf (getD_lt (by decide) hreel),
    be16_bytes (getD_lt (by decide) (levelWf_iff.mp hframe)), be16_bytes (getD_lt (by decide) (levelWf_iff.mp hoffset)),
    ite_isSome_getD]

theorem readContributions_contributionBytes {list : List Contribution} (h : list.all Contribution.wf = true) :
    readContributions list.length (list.flatMap contributionBytes) = some list := by
  induction list with
  | nil => rfl
  | cons c rest ih =>
    simp only [List.all_cons, Contribution.wf, Bool.and_eq_true, isByte_iff, isHalf_iff] at h
    obtain ⟨⟨hbus, hweight⟩, hrest⟩ := h
    simp only [List.length_cons, List.flatMap_cons, contributionBytes, bytes16, List.cons_append, List.nil_append,
      readContributions, ih hrest, Option.map_some, toNat_byteOf hbus, be16_bytes hweight]

theorem length_contributionBytes (list : List Contribution) :
    (list.flatMap contributionBytes).length = 3 * list.length := by
  simp [List.length_flatMap, contributionBytes, bytes16, Nat.mul_comm]

theorem map_toNat_byteOf {buses : List Nat} (h : buses.all isByte = true) :
    (buses.map byteOf).map BitVec.toNat = buses := by
  rw [List.map_map]
  exact List.map_congr_left (fun b hb => toNat_byteOf (isByte_iff.mp (List.all_eq_true.mp h b hb))) |>.trans
    (List.map_id _)

/-- What a well-formed request's payload is read as (check 4 of R152, R164). -/
theorem readRequest_requestPayload {r : Request} (h : r.wf = true) :
    readRequest (requestCode r) (requestPayload r) = some r := by
  cases r with
  | getPosition | getNotices | getResetCause | cueLog | handover | clearCounters | storeSettings | restart
  | ackResetCause => rfl
  | getStatus n | getCounters n | getMeters n | cueCancel n | cueList n | roomPop n | roomSlotClear n =>
    conv_rhs => rw [← toNat_byteOf (isByte_iff.mp h)]
    rfl
  | getSlot kind slot =>
    cases kind <;> exact congrArg (some <| Request.getSlot _ ·) (toNat_byteOf (isByte_iff.mp h))
  | setNoticeMask mask => exact congrArg (some <| Request.setNoticeMask ·) (extractLsb_append_halves mask)
  | setNoticeEnable on | setRevert on => cases on <;> rfl
  | linkRestart l | linkDisable l | linkEnable l | forceProgramme l | setPrimary l => cases l <;> rfl
  | setAirTemp temp =>
    simp only [Request.wf, Bool.and_eq_true, decide_eq_true_eq] at h
    exact congrArg (some <| Request.setAirTemp ·) (signed8_ofInt h.1 h.2)
  | cueAdd c => exact congrArg (Option.map Request.cueAdd) (readCue_cueAdd h)
  | roomPush programme master ramp =>
    simp only [Request.wf, Bool.and_eq_true, levelWf_iff, isByte_iff] at h
    obtain ⟨⟨hprogramme, hmaster⟩, hramp⟩ := h
    show some (Request.roomPush (readPushLevels _ _ _ _ _).1 (readPushLevels _ _ _ _ _).2 (byteOf ramp).toNat) = _
    rw [readPushLevels_presenceByte hprogramme hmaster, toNat_byteOf hramp]
  | setProgrammeLevel level ramp | setMasterLevel level ramp =>
    simp only [Request.wf, Bool.and_eq_true, isHalf_iff, isByte_iff] at h
    conv_rhs => rw [← be16_bytes h.1, ← toNat_byteOf h.2]
    rfl
  | setBusTrim bus value | setBusDistance bus value =>
    simp only [Request.wf, Bool.and_eq_true, isHalf_iff, isByte_iff] at h
    conv_rhs => rw [← toNat_byteOf h.1, ← be16_bytes h.2]
    rfl
  | muteGroup group on =>
    show (readOnOff (boolByte on)).map (Request.muteGroup (byteOf group).toNat) = _
    rw [readOnOff_boolByte, toNat_byteOf (isByte_iff.mp h), Option.map_some]
  | roomSlotSet slot track gain ramp list =>
    simp only [Request.wf, Bool.and_eq_true, isHalf_iff, isByte_iff, decide_eq_true_eq] at h
    obtain ⟨⟨⟨⟨⟨hslot, htrack⟩, hgain⟩, hramp⟩, hlength⟩, hlist⟩ := h
    show (readContributions (byteOf list.length).toNat (list.flatMap contributionBytes)).map
      (Request.roomSlotSet (byteOf slot).toNat (byteOf track).toNat (be16 _ _) (byteOf ramp).toNat) = _
    rw [toNat_byteOf (v := list.length) (by omega), readContributions_contributionBytes hlist, toNat_byteOf hslot,
      toNat_byteOf htrack, be16_bytes hgain, toNat_byteOf hramp, Option.map_some]
  | roomSlotGain slot gain ramp =>
    simp only [Request.wf, Bool.and_eq_true, isHalf_iff, isByte_iff] at h
    obtain ⟨⟨hslot, hgain⟩, hramp⟩ := h
    show some (Request.roomSlotGain (byteOf slot).toNat (be16 _ _) (byteOf ramp).toNat) = _
    rw [toNat_byteOf hslot, be16_bytes hgain, toNat_byteOf hramp]
  | setMuteGroup group buses =>
    simp only [Request.wf, Bool.and_eq_true, isByte_iff, decide_eq_true_eq] at h
    obtain ⟨⟨hgroup, hlength⟩, hbuses⟩ := h
    have hcount : (buses.map byteOf).length = (byteOf buses.length).toNat := by
      rw [List.length_map, toNat_byteOf (by omega)]
    refine (if_pos hcount).trans ?_
    rw [map_toNat_byteOf hbuses, toNat_byteOf hgroup]

/-- A well-formed request's payload fits its frame (R164). -/
theorem length_requestPayload {r : Request} (h : r.wf = true) : (requestPayload r).length ≤ 250 := by
  cases r with
  | roomSlotSet slot track gain ramp list =>
    simp only [Request.wf, Bool.and_eq_true, decide_eq_true_eq] at h
    obtain ⟨⟨-, hlength⟩, -⟩ := h
    simp only [requestPayload, bytes16, List.length_append, List.length_cons, List.length_nil,
      length_contributionBytes]
    omega
  | setMuteGroup group buses =>
    simp only [Request.wf, Bool.and_eq_true, decide_eq_true_eq] at h
    obtain ⟨⟨-, hlength⟩, -⟩ := h
    simp only [requestPayload, List.length_cons, List.length_map]
    omega
  | cueAdd c => cases ha : c.action <;> simp [requestPayload, bytes16, ha, actionArgs, pushArgs]
  | _ => simp [requestPayload, bytes16, pushArgs]

/-! ### Frames (check 1 of R152) -/

/-- A frame that carries a payload of at most 250 bytes passes the first check. -/
theorem readFrame_framed {code : Byte} {payload : List Byte} (h : payload.length ≤ 250) :
    readFrame (0xA5 :: code :: byteOf payload.length ::
      (payload ++ [xorBytes (code :: byteOf payload.length :: payload)])) = .ok code payload := by
  have hlength : (byteOf payload.length).toNat = payload.length := toNat_byteOf (by omega)
  simp [readFrame, hlength, h]

theorem readFrame_requestFrame {r : Request} (h : r.wf = true) :
    readFrame (requestFrame r) = .ok (requestCode r) (requestPayload r) :=
  readFrame_framed (length_requestPayload h)

theorem codeRights_requestCode (r : Request) : (codeRights (requestCode r)).isSome = true := by
  cases r <;> rfl

/-- Settles O18: the frame passes the first check with the request's code and payload (`readFrame_requestFrame`), the
code is a command's, and the payload is read as the request (`readRequest_requestPayload`). -/
theorem requestFramesReadBack : Obligations.RequestFramesReadBack := by
  unfold Obligations.RequestFramesReadBack
  intro p r h
  obtain ⟨c, hc⟩ := Option.isSome_iff_exists.mp (codeRights_requestCode r)
  simp only [checkFrame, readFrame_requestFrame h, hc, readRequest_requestPayload h]

end Sys2Proof.Machine
end

section
/-! SUPPORT. Request selections (R151 to R154, R157, R164, R173, R174): the four checks, acceptance and taking; O32. -/

namespace Sys2Proof.Machine

/-! ### Acceptance (R152, R153, R174) -/

section
variable {p : PortId} {s : State}

theorem State.accept_fail {status : Status} {echo : Byte} (code : Byte) (h : (s.port p).waiting = none) :
    s.accept p code (.fail status echo) = s.setPort p ((s.port p).discard.answered status echo []) := by
  rw [State.accept_free _ _ h]
  cases p <;> rfl

theorem State.accept_waits {r : Request} (code : Byte) (h : (s.port p).waiting = none)
    (hwaits : ¬ (s.startup = .loading ∧ waitsInLoading r = false)) :
    s.accept p code (.pass r) = s.setPort p ((s.port p).discard.await r) := by
  rw [State.accept_free _ _ h, State.settleRequest, State.startup_onPort, if_neg hwaits]
  cases p <;> rfl

theorem State.accept_loading {r : Request} (code : Byte) (h : (s.port p).waiting = none)
    (hloading : s.startup = .loading ∧ waitsInLoading r = false) :
    s.accept p code (.pass r) = s.setPort p ((s.port p).discard.answered .busy (requestCode r) []) := by
  rw [State.accept_free _ _ h, State.settleRequest, State.startup_onPort, if_pos hloading]
  cases p <;> rfl

theorem refusedInLoading_iff (r : Request) :
    (match r with | .getStatus _ => false | .getResetCause => false | _ => true) = true ↔
      waitsInLoading r = false := by
  unfold waitsInLoading
  split <;> simp

/-! ### Selections -/

theorem State.onPort_setPort (x : Port) (f : Port → Port) : (s.setPort p x).onPort p f = s.setPort p (f x) := by
  cases p <;> rfl

/-- A request selection whose first byte is not the fetch byte (R151). -/
theorem exec_requestSelection {b : Byte} (hb : b ≠ 0x5A) (rest : List Byte) :
    exec (.requestSelection p (b :: rest)) s = .next (s.requestSelection p (b :: rest)) :=
  congrArg Host.Outcome.next (if_neg hb)

/-- A selection that one port engine accepts changes that port alone, whose data output carries filler (log 14). -/
theorem completes_requestSelection {b : Byte} {rest : List Byte} {c : Checked} {x y : Port} (hb : b ≠ 0x5A)
    (hstartup : s.startup = .loading ∨ s.startup = .run) (hcheck : checkFrame p (b :: rest) = c)
    (haccept : s.accept p (codeByte (b :: rest)) c = s.setPort p x)
    (hy : y = { x with dataOut := List.replicate (rest.length + 1) 0xFF }) :
    Completes (.requestSelection p (b :: rest)) s fun t => t = s.withPortsOf t ∧ OnlyPort p y s t := by
  refine ⟨_, exec_requestSelection hb rest, ?_⟩
  have hselection : s.requestSelection p (b :: rest) = s.setPort p (x.sendFiller (rest.length + 1)) := by
    rw [← State.onPort_setPort, ← haccept, ← hcheck]
    rcases hstartup with h | h <;> simp only [State.requestSelection, h] <;> rfl
  rw [hselection, hy]
  exact State.setPort_only ..

end

/-! ### Check 1: the frame (R152) -/

/-- A frame with its start byte, at most 250 payload bytes, all of them there, and the check byte behind them (R164). -/
def WholeFrame (start code len : Byte) (rest : List Byte) : Prop :=
  start = 0xA5 ∧ len.toNat ≤ 250 ∧ len.toNat < rest.length ∧
    rest.getD len.toNat 0 = (rest.take len.toNat).foldl (· ^^^ ·) (code ^^^ len)

theorem xorBytes_header (code len : Byte) (payload : List Byte) :
    xorBytes (code :: len :: payload) = payload.foldl (· ^^^ ·) (code ^^^ len) := by
  simp [xorBytes]

theorem readFrame_whole {start code len : Byte} {rest : List Byte} (h : WholeFrame start code len rest) :
    readFrame (start :: code :: len :: rest) = .ok code (rest.take len.toNat) := by
  rw [WholeFrame, ← xorBytes_header] at h
  exact if_pos h

theorem readFrame_broken {start code len : Byte} {rest : List Byte} (h : ¬ WholeFrame start code len rest) :
    readFrame (start :: code :: len :: rest) = .bad code := by
  rw [WholeFrame, ← xorBytes_header] at h
  exact if_neg h

/-- A selection of fewer than three bytes is no frame. -/
theorem checkFrame_short (p : PortId) {sent : List Byte} (h : sent.length < 3) :
    checkFrame p sent = .fail .badFrame (sent.getD 1 0) := by
  match sent, h with
  | [], _ | [_], _ | [_, _], _ => rfl

/-! ### Checks 2 and 3: the code and the right (R152, R157) -/

/-- The command codes of R164. -/
def commandCodes : List Byte :=
  [0x01, 0x02, 0x03, 0x04, 0x05, 0x06, 0x07, 0x08, 0x09, 0x10, 0x11, 0x12, 0x13, 0x18, 0x19,
    0x20, 0x21, 0x22, 0x28, 0x29, 0x2A, 0x2B, 0x30, 0x31, 0x32, 0x33, 0x34, 0x35, 0x38, 0x39, 0x3A, 0x3B, 0x40, 0x41,
    0x42, 0x43]

theorem codeRights_isSome_iff (code : Byte) : (codeRights code).isSome = true ↔ code ∈ commandCodes := by
  revert code; decide

/-- Whether a port has the right to a code's class, as far as the code alone decides it (R157). -/
theorem classAllows_iff (p : PortId) (code : Byte) :
    ∀ c ∈ codeRights code, (classAllows p c = true ↔
      ¬ ((p = .C ∧ code = 0x28) ∨ ¬ (p = .C ∨ code.toNat < 0x28 ∧ code ≠ 0x21 ∧ code ≠ 0x22 ∨ code = 0x28))) := by
  cases p <;> revert code <;> decide

theorem holdsRight_iff (p : PortId) (r : Request) :
    holdsRight p r = true ↔
      match r with
      | .getStatus _ | .getCounters _ | .getMeters _ | .getPosition | .getSlot _ _ | .getNotices => True
      | .setNoticeMask _ | .setNoticeEnable _ | .getResetCause => True
      | .cueAdd _ | .cueCancel _ | .cueList _ | .cueLog | .roomPush _ _ _ | .roomPop _ => True
      | .linkRestart l => p = .C ∨ (p = .A ∧ l = .A) ∨ (p = .B ∧ l = .B)
      | .handover => p = .A ∨ p = .B
      | _ => p = .C := by
  cases r with
  | getStatus _ | getCounters _ | getMeters _ | getPosition | getSlot _ _ | getNotices => exact iff_of_true rfl trivial
  | setNoticeMask _ | setNoticeEnable _ | getResetCause => exact iff_of_true rfl trivial
  | cueAdd _ | cueCancel _ | cueList _ | cueLog | roomPush _ _ _ | roomPop _ => exact iff_of_true rfl trivial
  | linkRestart l => cases p <;> cases l <;> decide
  | handover => cases p <;> decide
  | _ => exact decide_eq_true_iff

/-! ### Check 4: the values (R152) -/

theorem all_le_iff {n : Nat} {level : Option Nat} :
    (level.all fun v => decide (v ≤ n)) = true ↔ ∀ v ∈ level, v ≤ n := by
  cases level <;> simp

theorem repeatsBus_iff (list : List Contribution) : repeatsBus list = false ↔ (list.map Contribution.bus).Nodup := by
  simp [repeatsBus]

/-- A match field is enabled unless none is (R121). -/
theorem enabled_iff (reel frame offset : Option Nat) :
    (reel.isSome || frame.isSome || offset.isSome) = true ↔ ¬ (reel = none ∧ frame = none ∧ offset = none) := by
  cases reel <;> simp [Option.isSome_iff_ne_none, imp_iff_not_or]

theorem actionOk_iff (a : CueAction) :
    actionOk a = true ↔
      match a with
      | .programmeLevel level ramp => level ≤ 65535 ∧ ramp ≤ 255
      | .roomPush programme master ramp =>
        (∀ v ∈ programme, v ≤ 65535) ∧ (∀ v ∈ master, v ≤ 65535) ∧ ramp ≤ 255
      | .roomPop ramp => ramp ≤ 255
      | .muteGroup group _ => group ≤ 3
      | .notify => True := by
  cases a with
  | programmeLevel _ _ => simp only [actionOk, Bool.and_eq_true, decide_eq_true_eq]
  | roomPush _ _ _ => simp only [actionOk, Bool.and_eq_true, all_le_iff, decide_eq_true_eq, and_assoc]
  | roomPop _ | muteGroup _ _ => exact decide_eq_true_iff
  | notify => exact iff_of_true rfl trivial

theorem argsOk_iff (r : Request) :
    argsOk r = true ↔
      match r with
      | .getStatus sect => sect ≤ 7
      | .getCounters sect => sect ≤ 2
      | .getMeters group => group ≤ 3
      | .getSlot .programme slot => slot ≤ 127
      | .getSlot .room slot => slot ≤ 7
      | .cueAdd c =>
        1 ≤ c.id ∧ c.id ≤ 255 ∧ ¬ (c.reel = none ∧ c.frame = none ∧ c.offset = none) ∧
          (∀ v ∈ c.reel, 1 ≤ v ∧ v ≤ 15) ∧ (∀ v ∈ c.frame, v ≤ 65535) ∧ (∀ v ∈ c.offset, v ≤ 1999) ∧
          (match c.action with
            | .programmeLevel level ramp => level ≤ 65535 ∧ ramp ≤ 255
            | .roomPush programme master ramp =>
              (∀ v ∈ programme, v ≤ 65535) ∧ (∀ v ∈ master, v ≤ 65535) ∧ ramp ≤ 255
            | .roomPop ramp => ramp ≤ 255
            | .muteGroup group _ => group ≤ 3
            | .notify => True)
      | .cueCancel id => id ≤ 255
      | .cueList rank => rank ≤ 47
      | .roomPush programme master ramp =>
        (∀ v ∈ programme, v ≤ 65535) ∧ (∀ v ∈ master, v ≤ 65535) ∧ ramp ≤ 255
      | .roomPop ramp => ramp ≤ 255
      | .forceProgramme l | .setPrimary l => l = .A ∨ l = .B
      | .setProgrammeLevel level ramp | .setMasterLevel level ramp => level ≤ 65535 ∧ ramp ≤ 255
      | .muteGroup group _ => group ≤ 3
      | .roomSlotSet slot track gain ramp list =>
        slot ≤ 7 ∧ track ≤ 7 ∧ gain ≤ 65535 ∧ ramp ≤ 255 ∧ 1 ≤ list.length ∧ list.length ≤ 8 ∧
          (∀ c ∈ list, c.bus ≤ 63) ∧ (list.map Contribution.bus).Nodup
      | .roomSlotGain slot gain ramp => slot ≤ 7 ∧ gain ≤ 65535 ∧ ramp ≤ 255
      | .roomSlotClear slot => slot ≤ 7
      | .setBusTrim bus trim => bus ≤ 63 ∧ trim ≤ 65535
      | .setBusDistance bus distance => bus ≤ 63 ∧ distance ≤ 65535
      | .setAirTemp temp => -128 ≤ temp ∧ temp ≤ 127
      | .setMuteGroup group list => group ≤ 3 ∧ list.length ≤ 64 ∧ ∀ b ∈ list, b ≤ 63
      | _ => True := by
  cases r with
  | getPosition | getNotices | setNoticeMask _ | setNoticeEnable _ | getResetCause | cueLog =>
    exact iff_of_true rfl trivial
  | linkRestart _ | linkDisable _ | linkEnable _ | handover | setRevert _ => exact iff_of_true rfl trivial
  | clearCounters | storeSettings | restart | ackResetCause => exact iff_of_true rfl trivial
  | getStatus _ | getCounters _ | getMeters _ | cueCancel _ | cueList _ | roomPop _ | muteGroup _ _ | roomSlotClear _ =>
    exact decide_eq_true_iff
  | getSlot kind _ => cases kind <;> exact decide_eq_true_iff
  | forceProgramme l | setPrimary l => cases l <;> decide
  | roomPush _ _ _ => simp only [argsOk, Bool.and_eq_true, all_le_iff, decide_eq_true_eq, and_assoc]
  | setProgrammeLevel _ _ | setMasterLevel _ _ | roomSlotGain _ _ _ | setBusTrim _ _ | setBusDistance _ _
  | setAirTemp _ =>
    simp only [argsOk, Bool.and_eq_true, decide_eq_true_eq, and_assoc]
  | setMuteGroup _ _ =>
    simp only [argsOk, Bool.and_eq_true, List.all_eq_true, decide_eq_true_eq, and_assoc]
  | roomSlotSet _ _ _ _ _ =>
    simp only [argsOk, roomSlotSetOk, Bool.and_eq_true, List.all_eq_true, decide_eq_true_eq, Bool.not_eq_true',
      repeatsBus_iff, and_assoc]
  | cueAdd c =>
    simp only [argsOk, cueOk, Bool.and_eq_true, enabled_iff, Option.all_eq_true, actionOk_iff, decide_eq_true_eq,
      and_assoc, Option.mem_def]

/-! ### The checks together (R152) -/

theorem checkFrame_broken {start code len : Byte} {rest : List Byte} (h : ¬ WholeFrame start code len rest)
    (p : PortId) : checkFrame p (start :: code :: len :: rest) = .fail .badFrame code := by
  simp only [checkFrame, readFrame_broken h]

section
variable {start code len : Byte} {rest : List Byte} (h : WholeFrame start code len rest) (p : PortId)
include h

theorem checkFrame_unknown (hcode : code ∉ commandCodes) :
    checkFrame p (start :: code :: len :: rest) = .fail .unknown code := by
  have hnone : codeRights code = none := by simpa using mt (codeRights_isSome_iff code).mp hcode
  simp only [checkFrame, readFrame_whole h, hnone]

theorem checkFrame_read {r : Request} (hcode : code ∈ commandCodes)
    (hread : readRequest code (rest.take len.toNat) = some r) :
    checkFrame p (start :: code :: len :: rest) = checkRequest p r := by
  obtain ⟨c, hc⟩ := Option.isSome_iff_exists.mp ((codeRights_isSome_iff code).mpr hcode)
  simp only [checkFrame, readFrame_whole h, hc, hread]

/-- A payload that is read as no request fails check 3 or check 4, by the class of its code (log 14). -/
theorem checkFrame_unread {c : Rights} (hc : codeRights code = some c)
    (hread : readRequest code (rest.take len.toNat) = none) :
    checkFrame p (start :: code :: len :: rest) =
      if classAllows p c then .fail .badArgument code else .fail .notPermitted code := by
  simp only [checkFrame, readFrame_whole h, hc, hread]

end

theorem checkRequest_spec {p : PortId} {r : Request} {right inRange : Prop} (hright : holdsRight p r = true ↔ right)
    (hrange : argsOk r = true ↔ inRange) :
    (¬ right → checkRequest p r = .fail .notPermitted (requestCode r)) ∧
      (right → ¬ inRange → checkRequest p r = .fail .badArgument (requestCode r)) ∧
      (right → inRange → checkRequest p r = .pass r) := by
  refine ⟨fun h => if_neg (mt hright.mp h), fun h h' => ?_, fun h h' => ?_⟩
  · exact (if_pos (hright.mpr h)).trans (if_neg (mt hrange.mp h'))
  · exact checkRequest_pass (hright.mpr h) (hrange.mpr h')

/-- A request's checks answer with its own code, or pass it. -/
theorem checkRequest_cases (p : PortId) (r : Request) :
    checkRequest p r = .pass r ∨ ∃ status, checkRequest p r = .fail status (requestCode r) := by
  unfold checkRequest
  split
  · split
    · exact .inl rfl
    · exact .inr ⟨_, rfl⟩
  · exact .inr ⟨_, rfl⟩

/-! ### Commands presented at their ports (R154; log 5) -/

theorem exec_commandOf (p : PortId) (r : Request) (s : State) : exec (commandOf p r) s = .next (s.present p r) := by
  cases r <;> rfl

theorem State.atBlockEnd_iff {s : State} : s.atBlockEnd = true ↔ s.samplesDone = 32 ∨ s.blockEndOpen = true := by
  simp [State.atBlockEnd]

theorem State.mayTake_iff {p : PortId} {s : State} :
    s.mayTake p = true ↔ s.samplesDone = 32 ∨ (s.blockEndOpen = true ∧ (s.port p).due = true) := by
  simp [State.mayTake]

section
variable {p : PortId} {r : Request} {s : State}

/-- Without a request of its own that may be taken, a presented command is accepted like its frame (log 5). -/
theorem State.present_arrives (hticking : s.ticking = true)
    (hown : ¬ ((s.port p).waiting = some r ∧
      (s.samplesDone = 32 ∨ (s.blockEndOpen = true ∧ (s.port p).due = true)))) :
    s.present p r = s.acceptAndTake p r := by
  rw [← State.mayTake_iff] at hown
  simp only [State.present, hticking, hown, if_false, Bool.true_eq_false]

/-- An accepted request that is not made to wait is not taken. -/
theorem State.acceptAndTake_of_not_waiting {x : Port}
    (haccept : s.accept p (requestCode r) (checkRequest p r) = s.setPort p x)
    (h : (s.port p).waiting = none → x.waiting = none) : s.acceptAndTake p r = s.setPort p x := by
  rw [State.acceptAndTake, haccept]
  refine if_neg fun ⟨_, hnone, hwaits⟩ => ?_
  rw [State.port_setPort_self, h hnone] at hwaits
  cases hwaits

/-- An accepted request that waits is taken at once where a block end falls together with its acceptance (R154). -/
theorem State.acceptAndTake_of_waiting {x : Port}
    (haccept : s.accept p (requestCode r) (checkRequest p r) = s.setPort p x) (h : (s.port p).waiting = none)
    (hx : x.waiting = some r) :
    s.acceptAndTake p r =
      if s.samplesDone = 32 ∨ s.blockEndOpen = true then takeRequest p r (s.setPort p x) else s.setPort p x := by
  simp only [State.acceptAndTake, haccept, State.port_setPort_self, h, hx, and_true, State.atBlockEnd_iff]

end

/-- Settles O32: what a selection makes of its port is read off the outcomes of an acceptance (`State.accept_busy`,
`State.accept_fail`, `State.accept_waits`, `State.accept_loading`); each check is read off the frame, the code and the
request. -/
theorem requestSelectionRuns : Obligations.RequestSelectionRuns := by
  unfold Obligations.RequestSelectionRuns
  refine ⟨fun p b rest s hrun hb => ?run, fun p b rest s r hb hpass hwaiting hstartup => ?loading,
    fun p sent => checkFrame_short p, fun p start code len rest => ?frame,
    fun p r => checkRequest_spec (holdsRight_iff p r) (argsOk_iff r), fun p r s hstill => ?still,
    fun p r s htakable => ?taken, fun p r s hticking hown => ?arrives⟩
  case run =>
    cases hwaiting : (s.port p).waiting with
    | some r =>
      exact completes_requestSelection hb (.inr hrun) rfl (State.accept_busy _ _ (by simp [hwaiting])) rfl
    | none =>
      cases hcheck : checkFrame p (b :: rest) with
      | fail status code =>
        refine completes_requestSelection hb (.inr hrun) hcheck (State.accept_fail _ hwaiting) ?_
        dsimp only
        rw [hwaiting]
        rfl
      | pass r =>
        exact completes_requestSelection hb (.inr hrun) hcheck (State.accept_waits _ hwaiting (by simp [hrun])) rfl
  case loading =>
    rcases hstartup with hloading | hreset
    · have hnotReset : ¬ s.startup = .reset := by simp [hloading]
      cases hwaits : waitsInLoading r with
      | true =>
        exact completes_requestSelection hb (.inl hloading) hpass (State.accept_waits _ hwaiting (by simp [hwaits]))
          ((if_neg hnotReset).trans (if_pos hwaits))
      | false =>
        exact completes_requestSelection hb (.inl hloading) hpass
          (State.accept_loading _ hwaiting ⟨hloading, hwaits⟩)
          ((if_neg hnotReset).trans (if_neg (Bool.eq_false_iff.mp hwaits)))
    · rw [if_pos hreset]
      refine ⟨_, exec_requestSelection hb rest, ?_⟩
      simp only [State.requestSelection, hreset]
      exact State.setPort_only ..
  case frame =>
    intro payload whole known allowed denied checked
    refine ⟨fun h => checkFrame_broken h p, fun h hunknown => checkFrame_unknown h p hunknown, fun h hknown => ?_⟩
    cases hread : readRequest code payload with
    | some r => exact checkFrame_read h p hknown hread
    | none =>
      obtain ⟨c, hc⟩ := Option.isSome_iff_exists.mp ((codeRights_isSome_iff code).mpr hknown)
      have hallows : classAllows p c = true ↔ ¬ denied := classAllows_iff p code c hc
      have hchecked := checkFrame_unread h p hc hread
      exact ⟨fun hdenied => hchecked.trans (if_neg fun hclass => hallows.mp hclass hdenied),
        fun hnotDenied => hchecked.trans (if_pos (hallows.mpr hnotDenied))⟩
  case still => rw [exec_commandOf, State.present_off hstill]
  case taken =>
    rw [exec_commandOf]
    rcases htakable with h | h
    · rw [State.present_takable h]
    · rw [State.present_takableLoading h]
  case arrives =>
    intro answered waits
    refine ⟨_, exec_commandOf p r s, ?_⟩
    rw [State.present_arrives hticking hown]
    cases hwaiting : (s.port p).waiting with
    | some r' =>
      exact State.acceptAndTake_of_not_waiting (State.accept_busy _ _ (by simp [hwaiting])) (by simp [hwaiting])
    | none =>
      rcases checkRequest_cases p r with hpass | ⟨status, hfail⟩
      · rw [hpass]
        by_cases hloading : s.startup = .loading ∧ waitsInLoading r = false
        · exact (if_pos ⟨hloading.1, (refusedInLoading_iff r).mpr hloading.2⟩).mpr
            (State.acceptAndTake_of_not_waiting (hpass ▸ State.accept_loading _ hwaiting hloading) fun _ => rfl)
        · refine (if_neg fun h => hloading ⟨h.1, (refusedInLoading_iff r).mp h.2⟩).mpr ?_
          rw [State.acceptAndTake_of_waiting (hpass ▸ State.accept_waits _ hwaiting hloading) hwaiting rfl]
          split <;> rfl
      · rw [hfail]
        exact State.acceptAndTake_of_not_waiting (hfail ▸ State.accept_fail _ hwaiting) fun _ => rfl

end Sys2Proof.Machine
end

section
/-! SUPPORT. What the passing of time and the block ends move: the start-up state, the tick, the block count and the
house samples of the block (chapter 11); what leaves these alone, for O10. -/

namespace Sys2Proof.Machine

/-! ### The house clock -/

/-- The part of the state that `TimeLaw` speaks of (`TimeLaw.of_clock`). -/
structure Clock where
  startup : Startup
  tick : Tick
  blockCount : BitVec 32
  samplesDone : Nat
  blockEndOpen : Bool

def State.clock (s : State) : Clock := ⟨s.startup, s.tick, s.blockCount, s.samplesDone, s.blockEndOpen⟩

section
variable (s : State)

/-! ### The shared operations -/

@[simp] theorem State.clock_onLink (l : LinkId) (f : Link → Link) : (s.onLink l f).clock = s.clock := by
  cases l <;> rfl

@[simp] theorem State.clock_onPort (p : PortId) (f : Port → Port) : (s.onPort p f).clock = s.clock := by
  cases p <;> rfl

@[simp] theorem State.clock_notify (p : PortId) (n : Notice) : (s.notify p n).clock = s.clock :=
  State.clock_onPort ..

@[simp] theorem State.clock_notifyAll (n : Notice) : (s.notifyAll n).clock = s.clock := rfl

@[simp] theorem State.clock_notifyServer (l : LinkId) (n : Notice) : (s.notifyServer l n).clock = s.clock := by
  cases l <;> rfl

@[simp] theorem State.clock_answer (p : PortId) (code : Byte) (status : Status) (payload : List Byte) :
    (s.answer p code status payload).clock = s.clock := State.clock_onPort ..

@[simp] theorem State.clock_setLive (p : PortId) (r : Request) : (s.setLive p r).clock = s.clock :=
  State.clock_onPort ..

@[simp] theorem State.clock_onSel (f : Selector → Selector) : (s.onSel f).clock = s.clock := rfl

@[simp] theorem State.clock_onRoom (f : Room → Room) : (s.onRoom f).clock = s.clock := rfl

@[simp] theorem State.clock_onScene (f : Scene → Scene) : (s.onScene f).clock = s.clock := rfl

@[simp] theorem State.clock_onShow (f : Show → Show) : (s.onShow f).clock = s.clock := rfl

@[simp] theorem State.clock_onBus (i : Nat) (f : Bus → Bus) : (s.onBus i f).clock = s.clock := rfl

/-! ### Links (chapters 1 to 3) -/

@[simp] theorem State.clock_setPhase (l : LinkId) (ph : Phase) : (s.setPhase l ph).clock = s.clock :=
  State.clock_onLink ..

@[simp] theorem State.clock_setLinkState (l : LinkId) (st : LinkState) : (s.setLinkState l st).clock = s.clock := by
  simp [State.setLinkState, apply_ite State.clock]

@[simp] theorem State.clock_enterSearch (l : LinkId) : (s.enterSearch l).clock = s.clock := by
  simp [State.enterSearch]

@[simp] theorem State.clock_dropMalformed (l : LinkId) : (s.dropMalformed l).clock = s.clock := by
  simp [State.dropMalformed, apply_ite State.clock]

@[simp] theorem State.clock_offerRecords (l : LinkId) (tag : FrameIndex) (rs : List MetaRecord) :
    (s.offerRecords l tag rs).clock = s.clock := by
  have hoffer (t : State) (r : MetaRecord) : (t.offerRecord l tag r).clock = t.clock := by
    unfold State.offerRecord
    split <;> simp [apply_ite State.clock]
  exact List.foldlRecOn (motive := fun t => t.clock = s.clock) _ _ rfl fun t ht r _ => (hoffer t r).trans ht

@[simp] theorem State.clock_handOn (l : LinkId) (b : FeedBlock) (frames : List (List Int)) :
    (s.handOn l b frames).clock = s.clock := by
  simp [State.handOn, State.recordStatus, apply_ite State.clock]

@[simp] theorem State.clock_slipCheck (l : LinkId) : (s.slipCheck l).clock = s.clock := by
  simp [State.slipCheck, apply_ite State.clock]

@[simp] theorem State.clock_beginRun (l : LinkId) (b : FeedBlock) (capture : Tick) :
    (s.beginRun l b capture).clock = s.clock := by
  simp [State.beginRun]

@[simp] theorem State.clock_reenterRun (l : LinkId) (b : FeedBlock) (capture : Tick) :
    (s.reenterRun l b capture).clock = s.clock := by
  unfold State.reenterRun
  dsimp only
  split <;> simp

@[simp] theorem State.clock_extendRun (l : LinkId) (b : FeedBlock) (capture : Tick) :
    (s.extendRun l b capture).clock = s.clock := by
  rw [State.extendRun_eq, State.judgeRun]
  split <;> simp [apply_ite State.clock]

@[simp] theorem State.clock_conceal (l : LinkId) (g : Nat) : (s.conceal l g).clock = s.clock := by
  induction g generalizing s with
  | zero => rfl
  | succ g ih => simp [State.conceal, ih]

@[simp] theorem State.clock_takeLocked (l : LinkId) (b : FeedBlock) (capture : Tick) (d : Nat) :
    (s.takeLocked l b capture d).clock = s.clock := by
  simp [State.takeLocked, State.handOnLocked, apply_ite State.clock]

@[simp] theorem State.clock_resume (l : LinkId) : (s.resume l).clock = s.clock := by
  simp [State.resume, apply_ite State.clock]

@[simp] theorem State.clock_acceptBlock (l : LinkId) (b : FeedBlock) (capture : Tick) :
    (s.acceptBlock l b capture).clock = s.clock := by
  rw [State.acceptBlock_eq, State.takeValid]
  split <;> simp [apply_ite State.clock]

@[simp] theorem State.clock_start (l : LinkId) : (s.start l).clock = s.clock := by
  unfold State.start
  split <;> simp

@[simp] theorem State.clock_expireGap (l : LinkId) (d : Tick) : (s.expireGap l d).clock = s.clock := by
  unfold State.expireGap
  split <;> simp

@[simp] theorem State.clock_expireHoldover (l : LinkId) : (s.expireHoldover l).clock = s.clock := by
  simp [State.expireHoldover, apply_ite State.clock]

/-! ### The selector (chapter 4) -/

@[simp] theorem State.clock_setSel (st : SelState) : (s.setSel st).clock = s.clock := rfl

@[simp] theorem State.clock_setAlign (a : AlignStatus) : (s.setAlign a).clock = s.clock := rfl

@[simp] theorem State.clock_setRevertCount (n : Nat) : (s.setRevertCount n).clock = s.clock := rfl

@[simp] theorem State.clock_moveProgramme (sel : Selector) (cueing : Show) (x : ProgLink) :
    (s.moveProgramme sel cueing x).clock = s.clock := by
  rw [State.moveProgramme_frame]
  rfl

@[simp] theorem State.clock_enterCrossfade (out : Option ProgLink) (inc : ProgLink) :
    (s.enterCrossfade out inc).clock = s.clock := by
  cases out with
  | none => rw [State.enterCrossfade_none, State.clock_moveProgramme]
  | some x => rw [State.enterCrossfade_some, State.clock_moveProgramme]

@[simp] theorem State.clock_reverse (away back : ProgLink) (k : Nat) : (s.reverse away back k).clock = s.clock := by
  rw [State.reverse_eq, State.clock_moveProgramme]

@[simp] theorem State.clock_pruneStandby (x : ProgLink) : (s.pruneStandby x).clock = s.clock := by
  simp [State.pruneStandby, State.prune_eq_onLink, apply_ite State.clock]

@[simp] theorem State.clock_alignStandby : s.alignStandby.clock = s.clock := by
  unfold State.alignStandby State.offer
  split
  · simp
  · split
    · split
      · simp
      · split <;> simp [apply_ite State.clock]
    · simp

@[simp] theorem State.clock_crossfadeStep : s.crossfadeStep.clock = s.clock := by
  unfold State.crossfadeStep
  split <;> simp [apply_ite State.clock]

@[simp] theorem State.clock_decideStep : s.decideStep.clock = s.clock := by
  unfold State.decideStep
  split
  · simp [State.decideIdle, apply_ite State.clock]
  · simp [State.decideOn, State.revertTest, apply_ite State.clock]
  · rfl

@[simp] theorem State.clock_evaluate : s.evaluate.clock = s.clock := by simp [State.evaluate]

@[simp] theorem State.clock_force (x : ProgLink) : (s.force x).clock = s.clock := by
  unfold State.force State.forceReverse
  split <;> simp [apply_ite State.clock]

/-! ### The scene table (chapter 5) -/

@[simp] theorem State.clock_applyRecord (x : ProgLink) (tracks : Nat) (r : Tagged) :
    (s.applyRecord x tracks r).clock = s.clock := by
  unfold State.applyRecord
  split
  · rfl
  · simp

@[simp] theorem State.clock_applyDue (x : ProgLink) (n : FrameIndex) (tracks : Nat) :
    (s.applyDue x n tracks).clock = s.clock :=
  List.foldlRecOn (motive := fun t => t.clock = s.clock) _ _ (State.clock_onLink ..)
    fun t ht r _ => (State.clock_applyRecord t x tracks r).trans ht

@[simp] theorem State.clock_sceneWork (due : Option (ProgLink × FrameIndex × Nat)) :
    (s.sceneWork due).clock = s.clock := by
  unfold State.sceneWork
  dsimp only
  split
  · rfl
  · exact State.clock_applyDue ..

/-! ### Cues and the show position (chapter 7) -/

theorem State.clock_push {p : PortId} {programme master : Option Nat} {ramp : Nat} {s t : State}
    (h : s.push p programme master ramp = some t) : t.clock = s.clock := by
  rw [State.push_eq] at h
  split at h
  · cases h
  · cases h
    exact State.clock_onRoom ..

theorem State.clock_pop {p : PortId} {ramp : Nat} {status : Status} {s t : State} (h : s.pop p ramp = (status, t)) :
    t.clock = s.clock := by
  cases htop : s.room.stack.getLast? with
  | none =>
    cases (State.pop_empty htop).symm.trans h
    rfl
  | some e =>
    by_cases hp : p = e.owner ∨ p = .C
    · cases (State.pop_allowed htop hp).symm.trans h
      simp [apply_ite State.clock, State.popped, State.restore]
    · cases (State.pop_refused htop hp).symm.trans h
      rfl

@[simp] theorem State.clock_cueAction (p : PortId) (a : CueAction) : (s.cueAction p a).1.clock = s.clock := by
  cases a with
  | programmeLevel _ _ | muteGroup _ _ | notify => rfl
  | roomPush programme master ramp =>
    simp only [State.cueAction]
    split
    · exact State.clock_push ‹_›
    · rfl
  | roomPop ramp =>
    simp only [State.cueAction]
    split <;> exact State.clock_pop ‹_›

@[simp] theorem State.clock_fire (c : Cue) : (s.fire c).clock = s.clock := by
  unfold State.fire
  dsimp only
  split <;> simp

@[simp] theorem clock_evaluateCues (pos : ShowPos) (n : Nat) (cues : List Cue) :
    (evaluateCues pos n cues s).2.clock = s.clock := by
  induction cues generalizing s with
  | nil => rfl
  | cons c rest ih =>
    unfold evaluateCues
    split
    · exact ih s
    · split
      · dsimp only
        split <;> simp [ih]
      · exact ih s

@[simp] theorem State.clock_closeSegment (g : Segment) : (s.closeSegment g).clock = s.clock := by
  unfold State.closeSegment
  split
  · rfl
  · simp [State.evaluateSegment, apply_ite State.clock]

@[simp] theorem State.clock_passFrames (l : LinkId) (start : FrameIndex) (n : Nat) :
    (s.passFrames l start n).clock = s.clock := by
  have hstamp (acc : State × Segment) (σ : Stamp) : (passStamp l start n acc σ).1.clock = acc.1.clock := by
    unfold passStamp
    dsimp only
    split <;> simp [State.locateAt]
  have hpassed : ((s.link l).stamps.foldl (passStamp l start n) (s, none)).1.clock = s.clock :=
    List.foldlRecOn (motive := fun acc : State × Segment => acc.1.clock = s.clock) _ _ rfl
      fun acc hacc σ _ => (hstamp acc σ).trans hacc
  exact (State.clock_closeSegment ..).trans hpassed

@[simp] theorem State.clock_showWork (stop : Option (ProgLink × FrameIndex)) : (s.showWork stop).clock = s.clock := by
  unfold State.showWork State.applyLocate
  dsimp only
  split <;> simp [apply_ite State.clock]

/-- No work of a block end moves the clock. -/
@[simp] theorem State.clock_doWork (e : Ending) (w : Work) : (s.doWork e w).clock = s.clock := by
  unfold State.doWork
  split
  · match w with
    | .evaluation => exact State.clock_evaluate s
    | .scene => exact State.clock_sceneWork s e.due
    | .show => exact State.clock_showWork s e.stop
    | .muteSteps | .levels | .links => rfl
  · rfl

/-! ### House samples before they are counted (chapters 6 and 9) -/

@[simp] theorem State.clock_runSample : s.runSample.clock = s.clock := by
  have hmix (t : State) (programme aux : List Int) : (t.mixSample programme aux).clock = t.clock := by
    simp only [State.mixSample, apply_ite State.clock, State.clock_notify]
    exact ite_self _
  unfold State.runSample
  dsimp only
  split
  · exact hmix ..
  · rfl

/-! ### The port engines (chapter 10) -/

@[simp] theorem State.clock_accept (p : PortId) (code : Byte) (c : Checked) : (s.accept p code c).clock = s.clock := by
  unfold State.accept State.settleRequest
  split
  · simp
  · split <;> simp [apply_ite State.clock]

@[simp] theorem State.clock_requestSelection (p : PortId) (sent : List Byte) :
    (s.requestSelection p sent).clock = s.clock := by
  unfold State.requestSelection
  split <;> simp

@[simp] theorem State.clock_renderLive (p : PortId) : (s.renderLive p).clock = s.clock := by
  rw [State.renderLive_frame]
  rfl

/-! ### The reference block (chapter 11) -/

@[simp] theorem State.clock_sawEdge (seen : Bool) : (s.sawEdge seen).clock = s.clock := rfl

@[simp] theorem State.clock_moveRef (f : Reference → Reference) : (s.moveRef f).clock = s.clock := by
  simp only [State.moveRef, apply_ite State.clock, State.clock_notifyAll]
  exact ite_self _

/-! ### Requests taken -/

/-- A reset stops the clock at 0. -/
theorem State.clock_toReset (kind : ResetKind) : (s.toReset kind).clock = State.reset.clock := rfl

/-- A request that is taken leaves the clock alone, but a RESTART resets the part. -/
theorem State.clock_takeRequest (p : PortId) {r : Request} (hr : r ≠ .restart) :
    (takeRequest p r s).clock = s.clock := by
  cases r with
  | restart => exact absurd rfl hr
  | getStatus _ | getCounters _ | getMeters _ | getPosition | getSlot _ _ | getNotices | getResetCause =>
    simp [takeRequest, takeGetStatus, takeGetCounters, takeGetMeters, takeGetPosition, takeGetSlot, takeGetNotices,
      takeGetResetCause, apply_ite State.clock]
  | setNoticeMask _ | setNoticeEnable _ | cueList _ | cueLog =>
    simp [takeRequest, takeSetNoticeMask, takeSetNoticeEnable, takeCueList, takeCueLog, apply_ite State.clock]
  | cueAdd _ | cueCancel _ =>
    simp [takeRequest, takeCueAdd, takeCueCancel, apply_ite State.clock]
  | clearCounters | ackResetCause => exact State.clock_answer ..
  | storeSettings =>
    simp only [takeRequest, takeStoreSettings]
    split
    · exact State.clock_answer ..
    · exact State.clock_answer ..
  | linkRestart _ | linkDisable _ | linkEnable _ =>
    simp [takeRequest, takeLinkRestart, takeLinkDisable, takeLinkEnable, apply_ite State.clock]
  | handover | forceProgramme _ | setPrimary _ | setRevert _ =>
    simp only [takeRequest, takeHandover, takeForceProgramme, takeSetPrimary, takeSetRevert]
    repeat' split
    all_goals simp
  | setProgrammeLevel _ _ | setMasterLevel _ _ | muteGroup _ _ =>
    simp [takeRequest, takeSetProgrammeLevel, takeSetMasterLevel, takeMuteGroup, State.changeProgramme,
      State.changeMaster, State.setGroup, apply_ite State.clock]
  | roomPush _ _ _ =>
    simp only [takeRequest, takeRoomPush]
    split
    · exact State.clock_answer ..
    · exact (State.clock_answer ..).trans (State.clock_push ‹_›)
  | roomPop _ =>
    simp only [takeRequest, takeRoomPop]
    split <;> exact (State.clock_answer ..).trans (State.clock_pop ‹_›)
  | roomSlotSet _ _ _ _ _ | roomSlotGain _ _ _ | roomSlotClear _ =>
    simp [takeRequest, takeRoomSlotSet, takeRoomSlotGain, takeRoomSlotClear, apply_ite State.clock]
  | setBusTrim _ _ | setBusDistance _ _ | setAirTemp _ | setMuteGroup _ _ =>
    simp only [takeRequest, takeSetBusTrim, takeSetBusDistance, takeSetAirTemp, takeSetMuteGroup]
    repeat' split
    all_goals exact State.clock_answer ..

end

end Sys2Proof.Machine
end

section
/-! SUPPORT. The law of the house clock across a step (R169): O10. A command leaves the clock alone, resets the part,
lets ticks pass short of the next house sample, counts a house sample, or counts a block end; each lands on the grid of
512 and 16,384 ticks that the counts stand for. -/

namespace Sys2Proof.Machine

/-! ### The grid of house samples and block ends (R169) -/

/-- The clock stands `d` ticks past the house sample or block end that it counted last. -/
structure Clock.OnTime (d : Nat) (c : Clock) : Prop where
  tick_eq : c.tick = BitVec.ofNat 32 (16384 * c.blockCount.toNat + 512 * c.samplesDone + d)
  before_sample : d < 512
  done_le : c.samplesDone ≤ 32
  at_block_end : c.samplesDone = 32 → d = 0
  at_open : c.blockEndOpen = true → c.samplesDone = 0 ∧ d = 0

/-- The clock with the mark of an open block end set or dropped. -/
def Clock.setOpen (o : Bool) (c : Clock) : Clock := { c with blockEndOpen := o }

theorem add_ofNat_toNat_sub (t d : Tick) : t + BitVec.ofNat 32 (d - t).toNat = d := by
  rw [BitVec.ofNat_toNat, BitVec.setWidth_eq, BitVec.add_comm, BitVec.sub_add_cancel]

/-- Ticks counted from an instant, as a distance and as a sum. -/
theorem toNat_sub_ofNat_lt_iff {t : Tick} {n b : Nat} (hb : b ≤ 4294967296) :
    (t - BitVec.ofNat 32 n).toNat < b ↔ ∃ d, d < b ∧ t = BitVec.ofNat 32 (n + d) := by
  constructor
  · intro h
    refine ⟨_, h, ?_⟩
    rw [BitVec.ofNat_add, add_ofNat_toNat_sub]
  · rintro ⟨d, hd, rfl⟩
    rwa [BitVec.ofNat_add, BitVec.add_comm, BitVec.add_sub_cancel, BitVec.toNat_ofNat, Nat.mod_eq_of_lt (by omega)]

theorem timeLaw_iff {s : State} : TimeLaw s ↔ (s.ticking = true → ∃ d, s.clock.OnTime d) := by
  refine forall_congr' fun _ => ?_
  rw [toNat_sub_ofNat_lt_iff (by split <;> omega)]
  constructor
  · rintro ⟨hdone, ⟨d, hd, htick⟩, hopen⟩
    refine ⟨d, htick, ?_, hdone, fun hend => ?_, fun ho => ⟨hopen ho, ?_⟩⟩
    · split at hd <;> omega
    · rw [if_pos (.inl hend)] at hd
      omega
    · rw [if_pos (.inr ho)] at hd
      omega
  · rintro ⟨d, htick, hd, hdone, hend, hopen⟩
    refine ⟨hdone, ⟨d, ?_, htick⟩, fun ho => (hopen ho).1⟩
    split
    case isTrue hinstant =>
      have h0 : d = 0 := hinstant.elim hend fun ho => (hopen ho).2
      omega
    case isFalse => exact hd

theorem Clock.OnTime.close {d : Nat} {c : Clock} (h : c.OnTime d) : (c.setOpen false).OnTime d :=
  { h with at_open := nofun }

section
variable {s : State} {d : Nat}

theorem Clock.OnTime.tickOffset (h : s.clock.OnTime d) : s.tickOffset = d := by
  have htick : s.tick = _ := h.tick_eq
  have hd := h.before_sample
  rw [State.tickOffset, htick, BitVec.toNat_ofNat]
  omega

/-- Ticks within the limit end short of the next house sample. -/
theorem Clock.OnTime.pass (h : s.clock.OnTime d) (hclosed : s.blockEndOpen = false) {k : Nat} (hk : k ≤ s.runLimit) :
    { s.clock with tick := s.tick + BitVec.ofNat 32 k }.OnTime (d + k) := by
  have htick : s.tick = _ := h.tick_eq
  have hd := h.before_sample
  have hlimit : k ≤ 511 - d ∧ (s.samplesDone = 32 → k = 0) := by
    rw [State.runLimit, h.tickOffset] at hk
    split at hk
    case isTrue hruns =>
      have hmore : s.samplesDone < 32 := by simp_all
      exact ⟨hk, fun hend => by omega⟩
    case isFalse => exact ⟨by omega, fun _ => by omega⟩
  refine ⟨?_, by omega, h.done_le, fun hend => ?_, fun ho => absurd (hclosed.symm.trans ho) Bool.false_ne_true⟩
  · rw [htick, ← BitVec.ofNat_add, Nat.add_assoc _ d k]
  · rw [h.at_block_end hend, hlimit.2 hend]

/-- The next house sample is counted at its instant. -/
theorem Clock.OnTime.countSample (h : s.clock.OnTime d) (hclosed : s.blockEndOpen = false)
    (hmore : s.samplesDone < 32) : s.countSample.clock.OnTime 0 where
  tick_eq := by
    have htick : s.tick = _ := h.tick_eq
    have hd := h.before_sample
    change s.tick + BitVec.ofNat 32 (512 - s.tickOffset) = _
    rw [h.tickOffset, htick, ← BitVec.ofNat_add]
    congr 1
    change 16384 * s.blockCount.toNat + 512 * s.samplesDone + d + (512 - d) =
      16384 * s.blockCount.toNat + 512 * (s.samplesDone + 1) + 0
    omega
  before_sample := by decide
  done_le := hmore
  at_block_end _ := rfl
  at_open ho := absurd (hclosed.symm.trans ho) Bool.false_ne_true

/-- A block end stands at the end of its 16,384 ticks, whether it comes after the 32nd house sample or before
(log 3). -/
theorem Clock.OnTime.blockEndTick (h : s.clock.OnTime d) :
    s.blockEndTick = BitVec.ofNat 32 (16384 * (s.blockCount.toNat + 1)) := by
  have htick : s.tick = BitVec.ofNat 32 (16384 * s.blockCount.toNat + 512 * s.samplesDone + d) := h.tick_eq
  have hd := h.before_sample
  have hdone : s.samplesDone ≤ 32 := h.done_le
  unfold State.blockEndTick
  split
  case isTrue hend =>
    have hd0 : d = 0 := h.at_block_end hend
    rw [htick]
    congr 1
    omega
  case isFalse hbefore =>
    have hinBlock : s.tick.toNat % 16384 = 512 * s.samplesDone + d := by
      rw [htick, BitVec.toNat_ofNat]
      omega
    rw [hinBlock, htick, ← BitVec.ofNat_add]
    congr 1
    omega

/-- The block count wraps where the tick does. -/
theorem ofNat_blocks_succ (n : BitVec 32) :
    BitVec.ofNat 32 (16384 * (n + 1).toNat) = BitVec.ofNat 32 (16384 * (n.toNat + 1)) := by
  apply BitVec.eq_of_toNat_eq
  have hsucc : (n + 1).toNat = (n.toNat + 1) % 4294967296 := BitVec.toNat_add ..
  simp only [BitVec.toNat_ofNat, hsucc]
  omega

theorem Clock.OnTime.countBlock (h : s.clock.OnTime d) (o : Bool) : (s.countBlock.clock.setOpen o).OnTime 0 where
  tick_eq := h.blockEndTick.trans (ofNat_blocks_succ s.blockCount).symm
  before_sample := by decide
  done_le := Nat.zero_le 32
  at_block_end _ := rfl
  at_open _ := ⟨rfl, rfl⟩

end

/-! ### The clock kept, and the clock reset -/

/-- From `s` to `t` the clock stands as it was, or the part was reset. -/
def ClockKept (s t : State) : Prop := t.clock = s.clock ∨ t.clock = State.reset.clock

namespace ClockKept

variable {s t u : State}

theorem of_clock (h : t.clock = s.clock) : ClockKept s t := .inl h

theorem trans (hst : ClockKept s t) (htu : ClockKept t u) : ClockKept s u := by
  rcases htu with htu | htu
  · rwa [ClockKept, htu]
  · exact .inr htu

/-- A request that is taken leaves the clock alone or resets the part (R156). -/
theorem takeRequest (p : PortId) (r : Request) (s : State) : ClockKept s (takeRequest p r s) := by
  by_cases hr : r = .restart
  · subst hr
    exact .inr (s.clock_toReset .command)
  · exact of_clock (State.clock_takeRequest s p hr)

theorem sweep (p : PortId) (s : State) : ClockKept s (s.sweep p) := by
  unfold State.sweep
  split
  · exact of_clock rfl
  · split
    · exact takeRequest ..
    · exact of_clock rfl

theorem present (p : PortId) (r : Request) (s : State) : ClockKept s (s.present p r) := by
  have haccept : ClockKept s (s.accept p (requestCode r) (checkRequest p r)) := of_clock (State.clock_accept ..)
  unfold State.present State.acceptAndTake
  split
  · exact of_clock rfl
  · split
    · exact takeRequest ..
    · dsimp only
      split
      · exact haccept.trans (takeRequest ..)
      · exact haccept

theorem runEvents (e : Ending) (order : List BlockEvent) (left : List Work) (s : State) :
    ClockKept s (State.runEvents e order left s) := by
  induction order generalizing left s with
  | nil =>
    exact List.foldlRecOn (motive := ClockKept s) _ _ (of_clock rfl)
      fun u hu w _ => hu.trans (of_clock (State.clock_doWork u e w))
  | cons b rest ih =>
    cases b with
    | work w =>
      unfold State.runEvents
      split
      · exact (of_clock (State.clock_doWork s e w)).trans (ih ..)
      · exact ih ..
    | take p => exact (sweep p s).trans (ih ..)

/-- The works of a block end, which are done in RUN alone. -/
theorem works (order : List BlockEvent) (s : State) :
    ClockKept s (if s.startup = .run then s.blockWork order else s) := by
  split
  · exact (of_clock rfl).trans (runEvents ..)
  · exact of_clock rfl

end ClockKept

/-! ### The close of a block end, and the end of the load -/

theorem State.clock_settleBlockEnd (s : State) : s.settleBlockEnd.clock = s.clock.setOpen false := by
  have hrendered (u : State) : (((u.renderLive .A).renderLive .B).renderLive .C).clock = u.clock := by simp
  unfold State.settleBlockEnd
  dsimp only
  split
  · exact congrArg (Clock.setOpen false) (hrendered s.fixBlock.dropMarks)
  · exact congrArg (Clock.setOpen false) (hrendered s)

/-- The close of a block end drops its mark and leaves the clock otherwise alone, or a RESTART among its requests resets
the part. -/
theorem State.clock_closeBlockEnd (s : State) :
    s.closeBlockEnd.clock = s.clock.setOpen false ∨ s.closeBlockEnd.clock = State.reset.clock := by
  have hswept : ClockKept s (((s.sweep .A).sweep .B).sweep .C) :=
    ((ClockKept.sweep .A s).trans (.sweep .B _)).trans (.sweep .C _)
  unfold State.closeBlockEnd
  split
  case isTrue hopen =>
    dsimp only
    split
    case isTrue =>
      rw [State.clock_settleBlockEnd]
      exact hswept.imp (congrArg (Clock.setOpen false)) (congrArg (Clock.setOpen false))
    case isFalse hreset =>
      exact .inr (hswept.resolve_left fun hkept => hreset ((congrArg Clock.blockEndOpen hkept).trans hopen))
  case isFalse hclosed =>
    exact .inl (by rw [State.clock, Clock.setOpen, Bool.eq_false_of_not_eq_true hclosed])

/-- LOAD_END before the second block end of a load: the part at that block end, open for what waits (log 18). -/
def State.openLoadBlockEnd (s : State) : State :=
  if s.blockCount.toNat < 2 then { s.closeBlockEnd.markDue with blockEndOpen := true } else s

/-- LOAD_END before the earliest end of a load: the time runs on to it (R173; log 18). -/
def State.skipToLoadEnd (s : State) : State :=
  if s.tick.toNat < 40960 then
    { s with tick := 40960, blockCount := 2, samplesDone := 16, outFrame := List.replicate 64 0, outMark := false }
  else s

theorem State.runToLoadEnd_eq (s : State) : s.runToLoadEnd = s.openLoadBlockEnd.closeBlockEnd.skipToLoadEnd := rfl

/-- However many block ends a load's end closes, the clock is closed, or the part was reset. -/
theorem State.clock_closeLoadBlockEnd (s : State) :
    s.openLoadBlockEnd.closeBlockEnd.clock = s.clock.setOpen false ∨
      s.openLoadBlockEnd.closeBlockEnd.clock = State.reset.clock := by
  have hopened : s.openLoadBlockEnd.clock.setOpen false = s.clock.setOpen false ∨
      s.openLoadBlockEnd.clock.setOpen false = State.reset.clock := by
    unfold State.openLoadBlockEnd
    split
    · have hclosed := s.clock_closeBlockEnd.imp (congrArg (Clock.setOpen false)) (congrArg (Clock.setOpen false))
      exact hclosed
    · exact .inl rfl
  rcases s.openLoadBlockEnd.clock_closeBlockEnd with hclosed | hreset
  · rwa [hclosed]
  · exact .inr hreset

/-- The end of a load finds the clock closed, or moves it on to the earliest end of a load (R173), as it does for a part
that a RESTART among its requests has reset. -/
theorem State.clock_runToLoadEnd (s : State) :
    s.runToLoadEnd.clock = s.clock.setOpen false ∨
      s.runToLoadEnd.clock = ⟨s.runToLoadEnd.startup, 40960, 2, 16, false⟩ := by
  have hopen := s.openLoadBlockEnd.blockEndOpen_closeBlockEnd
  have hclock := s.clock_closeLoadBlockEnd
  rw [State.runToLoadEnd_eq]
  generalize s.openLoadBlockEnd.closeBlockEnd = u at hopen hclock
  unfold State.skipToLoadEnd
  split
  case isTrue => exact .inr (by rw [State.clock, hopen])
  case isFalse hlate =>
    refine .inl (hclock.resolve_right fun hreset => hlate ?_)
    rw [show u.tick = 0 from congrArg Clock.tick hreset]
    decide

/-- The earliest end of a load is the instant of the 16th house sample of the third block. -/
theorem Clock.onTime_earliestLoadEnd (st : Startup) : (⟨st, 40960, 2, 16, false⟩ : Clock).OnTime 0 where
  tick_eq := by simp
  before_sample := by decide
  done_le := Nat.le_of_ble_eq_true rfl
  at_block_end _ := rfl
  at_open := nofun

theorem State.ticking_congr {s t : State} (h : t.startup = s.startup) : t.ticking = s.ticking := by
  rw [State.ticking, State.ticking, h]

namespace TimeLaw

variable {s t : State}

/-- While the tick stands, there is nothing to keep. -/
theorem of_not_ticking (h : s.ticking = false) : TimeLaw s := timeLaw_iff.mpr fun ht => by simp [h] at ht

theorem of_onTime {d : Nat} (h : s.clock.OnTime d) : TimeLaw s := timeLaw_iff.mpr fun _ => ⟨d, h⟩

theorem onTime (h : TimeLaw s) (hticking : s.ticking = true) : ∃ d, s.clock.OnTime d := timeLaw_iff.mp h hticking

theorem of_reset (h : t.clock = State.reset.clock) : TimeLaw t := by
  refine of_not_ticking ?_
  rw [State.ticking, show t.startup = .reset from congrArg Clock.startup h]
  rfl

theorem of_clock (h : TimeLaw s) (hclock : t.clock = s.clock) : TimeLaw t := by
  rwa [timeLaw_iff, hclock, State.ticking_congr (congrArg Clock.startup hclock), ← timeLaw_iff]

theorem of_closed (h : TimeLaw s) (hclock : t.clock = s.clock.setOpen false) : TimeLaw t := by
  rw [timeLaw_iff, hclock, State.ticking_congr (s := s) (congrArg Clock.startup hclock)]
  exact fun hticking => (h.onTime hticking).imp fun _ => Clock.OnTime.close

theorem of_clockKept (h : TimeLaw s) (hkept : ClockKept s t) : TimeLaw t := hkept.elim h.of_clock of_reset

theorem toReset (kind : ResetKind) (s : State) : TimeLaw (s.toReset kind) := of_reset (s.clock_toReset kind)

/-! ### The close of a block end, and the passing of time -/

theorem closeBlockEnd (h : TimeLaw s) : TimeLaw s.closeBlockEnd := s.clock_closeBlockEnd.elim h.of_closed of_reset

/-- Ticks up to the limit, which end before the next house sample. -/
theorem pass (h : TimeLaw s) (hclosed : s.blockEndOpen = false) {k : Nat} (hk : k ≤ s.runLimit) :
    TimeLaw (s.setTick (s.tick + BitVec.ofNat 32 k)) :=
  timeLaw_iff.mpr fun hticking => (h.onTime hticking).elim fun _ hd => ⟨_, hd.pass hclosed hk⟩

theorem passTicks (h : TimeLaw s) (n : Nat) : TimeLaw (s.passTicks n) := by
  unfold State.passTicks
  split
  · exact h
  · exact h.closeBlockEnd.pass s.blockEndOpen_closeBlockEnd (Nat.min_le_right ..)

theorem closeBefore (h : TimeLaw s) (d : Option Tick) : TimeLaw (s.closeBefore d) := by
  unfold State.closeBefore
  split
  · exact h
  · split
    · exact h.closeBlockEnd
    · exact h

/-- A reached deadline at a closed block end lies before the next house sample, or has passed. -/
theorem expiryTick (h : TimeLaw s) (hclosed : s.blockEndOpen = false) (d : Tick) :
    TimeLaw (s.setTick (s.expiryTick d)) := by
  unfold State.expiryTick
  split
  case isTrue hreached =>
    rw [← add_ofNat_toNat_sub s.tick d]
    exact h.pass hclosed hreached
  case isFalse => exact h.of_clock rfl

/-- A block end that stays open for a deadline is left as it was, and the deadline is at its instant or out of reach. -/
theorem closeBefore_of_open {o : Option Tick} (hopen : (s.closeBefore o).blockEndOpen = true) :
    s.closeBefore o = s ∧ ∀ d, o = some d → (d - s.tick).toNat ≤ s.runLimit → d = s.tick := by
  cases o with
  | none => exact ⟨rfl, nofun⟩
  | some e =>
    rw [State.closeBefore] at hopen ⊢
    split at hopen
    case isTrue => simp [State.blockEndOpen_closeBlockEnd] at hopen
    case isFalse hstays =>
      refine ⟨if_neg hstays, ?_⟩
      rintro d ⟨⟩ hreached
      have hzero : (e - s.tick).toNat = 0 := by omega
      exact sub_eq_zero.mp (BitVec.eq_of_toNat_eq hzero)

/-- An expiry never moves the tick of an open block end: a deadline that would is one that closes it first (log 4). -/
theorem expiryTick_closeBefore (h : TimeLaw s) (deadline : State → Option Tick) {d : Tick}
    (hd : deadline (s.closeBefore (deadline s)) = some d) :
    TimeLaw ((s.closeBefore (deadline s)).setTick ((s.closeBefore (deadline s)).expiryTick d)) := by
  by_cases hopen : (s.closeBefore (deadline s)).blockEndOpen = true
  case pos =>
    obtain ⟨hsame, hinstant⟩ := closeBefore_of_open hopen
    rw [hsame] at hd ⊢
    have hstands : s.expiryTick d = s.tick := by
      unfold State.expiryTick
      split
      · exact hinstant d hd ‹_›
      · rfl
    rw [hstands]
    exact h.of_clock rfl
  case neg => exact (h.closeBefore _).expiryTick (Bool.eq_false_of_not_eq_true hopen) d

theorem gapExpiry (h : TimeLaw s) (l : LinkId) : TimeLaw ((s.closeBefore (s.link l).gapDeadline).gapExpiry l) := by
  cases hd : ((s.closeBefore (s.link l).gapDeadline).link l).gapDeadline with
  | none => rw [State.gapExpiry_stopped hd]; exact h.closeBefore _
  | some d =>
    by_cases hr : (s.closeBefore (s.link l).gapDeadline).reaches d
    · rw [State.gapExpiry_reached hd hr]
      exact (h.expiryTick_closeBefore (fun u => (u.link l).gapDeadline) hd).of_clock (State.clock_expireGap ..)
    · rw [State.gapExpiry_ahead hd hr]; exact h.closeBefore _

theorem holdExpiry (h : TimeLaw s) (l : LinkId) : TimeLaw ((s.closeBefore (s.link l).holdDeadline).holdExpiry l) := by
  cases hd : ((s.closeBefore (s.link l).holdDeadline).link l).holdDeadline with
  | none => rw [State.holdExpiry_stopped hd]; exact h.closeBefore _
  | some d =>
    by_cases hr : (s.closeBefore (s.link l).holdDeadline).reaches d
    · rw [State.holdExpiry_reached hd hr]
      exact (h.expiryTick_closeBefore (fun u => (u.link l).holdDeadline) hd).of_clock (State.clock_expireHoldover ..)
    · rw [State.holdExpiry_ahead hd hr]; exact h.closeBefore _

/-! ### House samples, block ends, the load and selections -/

theorem houseSample (h : TimeLaw s) (hclosed : s.blockEndOpen = false) : TimeLaw s.houseSample := by
  have hcount {u : State} (hu : u.clock = s.clock) (hmore : s.samplesDone < 32) : TimeLaw u.countSample := by
    refine timeLaw_iff.mpr fun hticking => ?_
    obtain ⟨d, hd⟩ := (h.of_clock hu).onTime hticking
    exact ⟨0, hd.countSample ((congrArg Clock.blockEndOpen hu).trans hclosed)
      (by rwa [show u.samplesDone = s.samplesDone from congrArg Clock.samplesDone hu])⟩
  unfold State.houseSample
  split
  · split
    · exact h
    · exact h
    · exact hcount rfl ‹_›
    · exact hcount s.clock_runSample ‹_›
  · exact h

/-- A block end is counted before its works, and then stays open unless a RESTART among them has reset the part. -/
theorem beginBlockEnd (h : TimeLaw s) (hticking : s.ticking = true) (order : List BlockEvent) :
    TimeLaw (s.beginBlockEnd order) := by
  obtain ⟨d, hd⟩ := h.onTime hticking
  obtain ⟨u, hworked, heq⟩ : ∃ u, ClockKept s.countBlock u ∧
      s.beginBlockEnd order = if u.ticking then { u with blockEndOpen := true } else u :=
    ⟨_, .works order s.countBlock.markDue, rfl⟩
  rw [heq]
  split
  case isTrue hstill =>
    rcases hworked with hkept | hreset
    · have hopened : ({ u with blockEndOpen := true } : State).clock = s.countBlock.clock.setOpen true :=
        congrArg (Clock.setOpen true) hkept
      exact of_onTime (d := 0) (hopened ▸ hd.countBlock true)
    · rw [State.ticking, show u.startup = .reset from congrArg Clock.startup hreset] at hstill
      cases hstill
  case isFalse hstops => exact of_not_ticking (Bool.eq_false_of_not_eq_true hstops)

theorem load (h : TimeLaw s) (hloading : s.startup = .loading) : TimeLaw s.runToLoadEnd.load := by
  obtain ⟨d, hd⟩ := h.onTime (State.ticking_iff.mpr (.inl hloading))
  have hload : s.runToLoadEnd.load.clock = { s.runToLoadEnd.clock with startup := .run } := by
    rw [State.load_eq]
    rfl
  rcases s.clock_runToLoadEnd with hclosed | hmoved
  · refine of_onTime (d := d) ?_
    rw [hload, hclosed]
    exact { hd.close with }
  · refine of_onTime (d := 0) ?_
    rw [hload, hmoved]
    exact Clock.onTime_earliestLoadEnd .run

theorem readSelection (h : TimeLaw s) (p : PortId) (n : Nat) : TimeLaw (s.readSelection p n) := by
  unfold State.readSelection
  dsimp only
  split
  · exact h.closeBlockEnd
  all_goals exact h.closeBlockEnd.of_clock (State.clock_onPort ..)

/-! ### Commands -/

theorem resetEnd (h : TimeLaw s) : Completes .resetEnd s TimeLaw := by
  refine ⟨_, rfl, ?_⟩
  split
  · exact of_onTime (d := 0) ⟨rfl, by decide, Nat.zero_le 32, fun _ => rfl, fun _ => ⟨rfl, rfl⟩⟩
  · exact h

theorem feedBlock (h : TimeLaw s) (l : LinkId) (symbols : List Symbol) :
    Completes (.feedBlock l symbols) s TimeLaw := by
  refine ⟨_, rfl, h.of_clock ?_⟩
  split
  · split
    · rfl
    · rfl
    · split <;> simp
  · rfl

/-- Every command completes and keeps the law. -/
theorem completes (h : TimeLaw s) (c : Instr) : Completes c s TimeLaw := by
  cases c with
  | startSymbol l ticks =>
    have hpassed := h.passTicks ticks
    by_cases hrun : (s.passTicks ticks).startup = .run
    · exact ⟨_, execStartSymbol_run hrun, hpassed.of_clock (State.clock_start ..)⟩
    · exact ⟨_, execStartSymbol_before_run hrun, hpassed⟩
  | feedBlock l symbols => exact h.feedBlock l symbols
  | gapTimerExpiry l => exact ⟨_, rfl, h.gapExpiry l⟩
  | holdoverTimerExpiry l => exact ⟨_, rfl, h.holdExpiry l⟩
  | houseSample => exact ⟨_, rfl, h.closeBlockEnd.houseSample s.blockEndOpen_closeBlockEnd⟩
  | blockEnd order =>
    refine ⟨_, rfl, ?_⟩
    split
    · exact h.closeBlockEnd.beginBlockEnd ‹_› order
    · exact h.closeBlockEnd
  | requestSelection p sent =>
    refine ⟨_, rfl, ?_⟩
    split
    · exact h
    · split
      · exact h.readSelection p _
      · exact h.of_clock (State.clock_requestSelection ..)
  | readSelection p n => exact ⟨_, rfl, h.readSelection p n⟩
  | storeWriteEnd readBack =>
    refine ⟨_, rfl, ?_⟩
    split
    · exact h
    · exact h.of_clock (State.clock_notify ..)
  | powerOn => exact ⟨_, rfl, of_reset rfl⟩
  | resetPin =>
    refine ⟨_, rfl, ?_⟩
    split
    · exact toReset .pin s
    · exact h
  | resetEnd => exact h.resetEnd
  | loadEnd =>
    refine ⟨_, rfl, ?_⟩
    split
    case isTrue hloading => exact h.load hloading.1
    case isFalse => exact h
  | refEdge period => exact ⟨_, rfl, h.of_clock (by simp [apply_ite State.clock])⟩
  | refMissingPeriod => exact ⟨_, rfl, h.of_clock (by simp [apply_ite State.clock])⟩
  | pullInEnd => exact ⟨_, rfl, h.of_clock rfl⟩
  | powerLoss => exact ⟨_, rfl, of_not_ticking rfl⟩
  | _ => exact ⟨_, rfl, h.of_clockKept (.present ..)⟩

end TimeLaw

/-- Settles O10: the law is kept by every command (`TimeLaw.completes`). Ticks stop short of the next house sample
(`Clock.OnTime.pass`), and house samples and block ends are counted on their grid (`Clock.OnTime.countSample`,
`Clock.OnTime.countBlock`). -/
theorem timeLawKept : Obligations.TimeLawKept :=
  keptByEveryStep_of_completes (fun _ _ h => h.of_clock rfl) (fun _ h => h.passTicks 1) fun c _ h => h.completes c

end Sys2Proof.Machine
end

section
/-! SUPPORT. STORE_SETTINGS, the end of RESET and the reset cause (sections 11.2, 11.3 and 11.5): O53, O56 and O58. -/

namespace Sys2Proof.Machine

/-! ### STORE_SETTINGS (R171) -/

theorem takeStoreSettings_busy {p : PortId} {s : State} (h : s.store.writing.isSome = true) :
    takeStoreSettings p s = s.answer p 0x41 .busy [] := if_pos (.inl h)

theorem takeStoreSettings_ok {p : PortId} {s : State} (hrun : s.startup = .run) (h : s.store.writing.isSome ≠ true) :
    takeStoreSettings p s = ({ s with store := s.store.beginWrite s.snapshot } : State).answer p 0x41 .ok [] :=
  if_neg fun hrefused => hrefused.elim h fun hstopped => hstopped hrun

/-- Settles O53: a running write answers BUSY (`takeStoreSettings_busy`), and otherwise one begins with the snapshot
(`takeStoreSettings_ok`). -/
theorem storeSettingsRuns : Obligations.StoreSettingsRuns := by
  unfold Obligations.StoreSettingsRuns
  intro p s ht
  by_cases hwriting : s.store.writing.isSome = true
  case pos =>
    simp only [if_pos hwriting]
    exact completes_answered (s' := s) rfl ht (takeStoreSettings_busy hwriting) fun _ => rfl
  case neg =>
    simp only [if_neg hwriting]
    exact completes_answered rfl ht (takeStoreSettings_ok ht.1 hwriting) fun q => by cases q <;> rfl

/-! ### RESET_END (R173) -/

/-- Settles O56: in RESET, its end is one update of the state. -/
theorem resetEnds : Obligations.ResetEnds := by
  unfold Obligations.ResetEnds
  intro s hreset
  exact ⟨_, congrArg Host.Outcome.next (if_pos hreset), rfl⟩

/-! ### The reset cause record (R174, R175) -/

/-- A request that is taken in LOADING or in RUN. -/
theorem State.present_takable_or {p : PortId} {r : Request} {s : State}
    (h : Takable p r s ∨ TakableLoading p r s) : s.present p r = takeRequest p r s :=
  h.elim State.present_takable State.present_takableLoading

/-- Settles O58: each request is an answer, after no change or after the record's clearing. -/
theorem resetCauseReadAndAcknowledged : Obligations.ResetCauseReadAndAcknowledged := by
  unfold Obligations.ResetCauseReadAndAcknowledged
  refine ⟨fun p s ht => ?read, fun p s ht => ?acknowledge⟩
  case read =>
    refine ⟨_, congrArg Host.Outcome.next (State.present_takable_or ht), State.answer_frame ..,
      State.answered_of_ports p 0x09 .ok _ fun _ => rfl⟩
  case acknowledge =>
    exact completes_answered (s' := { s with cause := ⟨none, false⟩ }) rfl ht rfl fun q => by cases q <;> rfl

end Sys2Proof.Machine
end

section
/-! SUPPORT. The reference block (section 11.1): what an edge and a missing period make of it (R168, R169); O59 and
O60. -/

namespace Sys2Proof.Machine

theorem exec_refEdge {period : Nat} {s : State} (h : s.ticking = true) :
    exec (.refEdge period) s = .next ((s.sawEdge true).moveRef (Reference.edge period)) :=
  congrArg Host.Outcome.next (if_pos h)

theorem exec_refMissingPeriod {s : State} (h : s.ticking = true) :
    exec .refMissingPeriod s = .next ((s.sawEdge false).moveRef Reference.miss) :=
  congrArg Host.Outcome.next (if_pos h)

/-! ### A move of the reference block (R168) -/

/-- The reference block with what its input showed last (log 21). -/
def Reference.saw (seen : Bool) (x : Reference) : Reference := { x with edgeRecent := seen }

section
variable (seen : Bool) (f : Reference → Reference) (s : State)

theorem State.ref_moveRef : ((s.sawEdge seen).moveRef f).ref = f (s.ref.saw seen) := by
  unfold State.moveRef
  dsimp only
  split <;> rfl

theorem State.moveRef_frame :
    (s.sawEdge seen).moveRef f =
      { s.withPortsOf ((s.sawEdge seen).moveRef f) with ref := ((s.sawEdge seen).moveRef f).ref } := by
  unfold State.moveRef
  dsimp only
  split <;> rfl

theorem State.port_moveRef (q : PortId) :
    (s.moveRef f).port q = if (f s.ref).state = s.ref.state then s.port q else (s.port q).raise .houseRef := by
  unfold State.moveRef
  dsimp only
  split <;> cases q <;> rfl

@[simp] theorem State.port_sawEdge (q : PortId) : (s.sawEdge seen).port q = s.port q := by cases q <;> rfl

/-- Only a change of the block's state raises HOUSE_REF, and then at all three ports. -/
theorem State.raises_moveRef :
    if ((s.sawEdge seen).moveRef f).ref.state = s.ref.state then
      ∀ q, ((s.sawEdge seen).moveRef f).port q = s.port q
    else RaisedAtAll .houseRef s ((s.sawEdge seen).moveRef f) := by
  have hport (q : PortId) := State.port_moveRef f (s.sawEdge seen) q
  simp only [State.port_sawEdge] at hport
  rw [State.ref_moveRef]
  split
  case isTrue hsame => exact fun q => (hport q).trans (if_pos hsame)
  case isFalse hmoves => exact fun q => (hport q).trans (if_neg hmoves)

end

/-! ### Periods in tolerance and bad periods (R168, R169) -/

theorem inTolerance_iff {period : Nat} : inTolerance period = true ↔ 502 ≤ period ∧ period ≤ 522 := by
  simp [inTolerance]

section
variable (x : Reference)

/-- A pull-in ends at the latest with its 4,096th period (R169). -/
theorem Reference.countPullIn_eq :
    x.countPullIn =
      { x with
        pullPeriods := if x.pullIn = true then x.pullPeriods + 1 else x.pullPeriods,
        pullIn := x.pullIn && decide (x.pullPeriods + 1 < 4096) } := by
  obtain ⟨_, _, _, _, _, _, _, pullIn, _, _⟩ := x
  cases pullIn <;> rfl

/-- The fourth bad period in a row loses the reference, and the kept periods become the free frequency. -/
theorem Reference.badPeriod_eq :
    x.badPeriod =
      if x.bad + 1 < 4 then { x with bad := x.bad + 1 }
      else { x with state := .hold, bad := 0, pullIn := false, freeCycles := x.periods.sum } := by
  unfold Reference.badPeriod
  split
  case isTrue h => exact (if_neg (Nat.not_lt.mpr h)).symm
  case isFalse h => exact (if_pos (Nat.not_le.mp h)).symm

/-- The 64th period in tolerance in a row locks. -/
theorem Reference.qualify_eq (period : Nat) :
    x.qualify period =
      if x.qual + 1 < 64 then { x.keepPeriod period with qual := x.qual + 1 }
      else { x.keepPeriod period with
        state := .locked, qual := 0, bad := 0, everLocked := true, pullIn := true, pullPeriods := 0 } := by
  unfold Reference.qualify
  dsimp only
  split
  case isTrue h => exact (if_neg (Nat.not_lt.mpr h)).symm
  case isFalse h => exact (if_pos (Nat.not_le.mp h)).symm

end

/-! ### Edges and missing periods by the block's state (R168) -/

section
variable {period : Nat} {x : Reference}

theorem Reference.edge_absent (h : x.state = .absent) :
    x.edge period = { x with state := .acquiring, qual := 0, missing := 0 } := by simp only [Reference.edge, h]

theorem Reference.edge_hold (h : x.state = .hold) :
    x.edge period = { x with state := .acquiring, qual := 0, missing := 0 } := by simp only [Reference.edge, h]

theorem Reference.edge_acquiring (h : x.state = .acquiring) :
    x.edge period =
      if 502 ≤ period ∧ period ≤ 522 then { x with missing := 0 }.qualify period
      else { x with missing := 0, qual := 0 } := by
  simp only [Reference.edge, h, inTolerance_iff]

theorem Reference.edge_locked (h : x.state = .locked) :
    x.edge period =
      if 502 ≤ period ∧ period ≤ 522 then { x.countPullIn.keepPeriod period with bad := 0 }
      else x.countPullIn.badPeriod := by
  simp only [Reference.edge, h, inTolerance_iff]

theorem Reference.miss_absent (h : x.state = .absent) : x.miss = x := by simp only [Reference.miss, h]

theorem Reference.miss_hold (h : x.state = .hold) : x.miss = x := by simp only [Reference.miss, h]

theorem Reference.miss_acquiring (h : x.state = .acquiring) :
    x.miss =
      if x.missing + 1 < 4 then { x with missing := x.missing + 1 }
      else { x with state := if x.everLocked = true then .hold else .absent, qual := 0, missing := 0 } := by
  simp only [Reference.miss, h]
  split
  case isTrue h => exact (if_neg (Nat.not_lt.mpr h)).symm
  case isFalse h => exact (if_pos (Nat.not_le.mp h)).symm

theorem Reference.miss_locked (h : x.state = .locked) : x.miss = x.badPeriod := by simp only [Reference.miss, h]

end

/-- Settles O59: the edge is a move of the reference block (`State.moveRef_frame`, `State.raises_moveRef`), which goes
by the block's state and by whether the period is in tolerance. -/
theorem referenceEdge : Obligations.ReferenceEdge := by
  unfold Obligations.ReferenceEdge
  intro period s hruns
  refine ⟨_, exec_refEdge (State.ticking_iff.mpr hruns), State.moveRef_frame .., State.raises_moveRef .., ?_⟩
  rw [State.ref_moveRef]
  have hsaw : (s.ref.saw true).state = s.ref.state := rfl
  cases hstate : s.ref.state with
  | absent => exact Reference.edge_absent (hsaw.trans hstate)
  | hold => exact Reference.edge_hold (hsaw.trans hstate)
  | acquiring =>
    have hedge := Reference.edge_acquiring (period := period) (hsaw.trans hstate)
    rw [Reference.qualify_eq] at hedge
    rw [hedge]
    refine ⟨fun hgood hlocks => ?locks, fun hgood hbelow => ?qualifies, fun hbad => ?restarts⟩
    case locks => exact (if_pos hgood).trans (if_neg (Nat.not_lt.mpr hlocks))
    case qualifies => exact (if_pos hgood).trans (if_pos hbelow)
    case restarts => exact if_neg hbad
  | locked =>
    have hedge := Reference.edge_locked (period := period) (hsaw.trans hstate)
    rw [Reference.badPeriod_eq, Reference.countPullIn_eq] at hedge
    rw [hedge]
    refine ⟨fun hgood => ?keeps, fun hbad hbelow => ?counts, fun hbad hfourth => ?loses⟩
    case keeps => exact if_pos hgood
    case counts => exact (if_neg hbad).trans (if_pos hbelow)
    case loses => exact (if_neg hbad).trans (if_neg (Nat.not_lt.mpr hfourth))

/-- Settles O60: a missing period is a move of the reference block by its state, in which the fourth in a row counts as
`Reference.miss_acquiring` and `Reference.badPeriod_eq` say. -/
theorem referenceMissingAndPullIn : Obligations.ReferenceMissingAndPullIn := by
  unfold Obligations.ReferenceMissingAndPullIn
  refine ⟨fun s hruns => ⟨_, exec_refMissingPeriod (State.ticking_iff.mpr hruns), State.moveRef_frame ..,
    State.raises_moveRef .., ?missing⟩, fun s => rfl⟩
  rw [State.ref_moveRef]
  have hsaw : (s.ref.saw false).state = s.ref.state := rfl
  cases hstate : s.ref.state with
  | absent => exact Reference.miss_absent (hsaw.trans hstate)
  | hold => exact Reference.miss_hold (hsaw.trans hstate)
  | acquiring => exact Reference.miss_acquiring (hsaw.trans hstate)
  | locked => exact (Reference.miss_locked (hsaw.trans hstate)).trans (Reference.badPeriod_eq _)

end Sys2Proof.Machine
end
